-- ==== Sys2Proof/Word.lean ====
section
/-! DEFINITION. The word types of the block (spec 00_scope.md R9, R13; 10_state.md). -/

namespace Sys2Proof

/-- A byte: 8 bits, bit 0 least significant (R9). -/
abbrev Byte := BitVec 8

/-- A 16-bit number: a checksum value (R130), `pkt` (R28), the `raw` component of an event (R281). -/
abbrev Word16 := BitVec 16

end Sys2Proof
end

