-- ==== Sys2Proof/Syntax.lean ====
section
/-! DEFINITION. The instruction syntax: one constructor for every row of spec/opcode_table.json, and the
named sets its operands range over. -/

namespace Sys2Proof

/-- The two protocol variants, in registry order: legacy is index 0, modern index 1 (R172 to R174). -/
inductive Variant where
  | legacy
  | modern
deriving DecidableEq, Repr, Inhabited

/-- The five connection states, in the source's order of listing, which is the order of their codes
(R25, R185). -/
inductive ConnState where
  | disconnected
  | pairing
  | streamingParse
  | streamingPeriodic
  | error
deriving DecidableEq, Repr, Inhabited

/-- The result of CLASSIFY (R155). -/
inductive Class where
  /-- the sequence opens with the handshake request of `v` -/
  | handshake (v : Variant)
  /-- the sequence opens with a valid data frame of `v` -/
  | frame (v : Variant)
  /-- too short to decide, so far compatible with a candidate (R153, R154) -/
  | pending
  /-- no candidate's message begins at offset 0 (R156) -/
  | noMatch
deriving DecidableEq, Repr, Inhabited

/-- The instructions: the wire messages of R90 and the operations of R18, one constructor for each row of
the opcode table. `l` is a link index `1..N_LINKS`, `v` a variant, `b` a byte sequence, `n` a length in bytes. -/
inductive Instr where
  -- wire messages in (R93, R94, R99, R100): the message arrives on link `l`
  | legacyHsReq (l : Nat)
  | modernHsReq (l : Nat)
  /-- `tag` is bits 6:0 of the byte at offset 1, `payload` the bytes 2 to 13 (R95); the checksum field is fixed
  by the side condition of R99. -/
  | legacyFrame (l : Nat) (tag : BitVec 7) (payload : List Byte)
  /-- As `legacyFrame`, with the polarity bit set and the side condition of R100. -/
  | modernFrame (l : Nat) (tag : BitVec 7) (payload : List Byte)
  -- wire messages out (R102 to R105): the message is emitted on link `l`
  | legacyHsRsp (l : Nat)
  | legacyPeriodicReq (l : Nat)
  | modernHsRsp (l : Nat)
  | modernPeriodicReq (l : Nat)
  -- the CRC Engine (R131 to R134)
  | crcLegacy (b : List Byte) (n : Nat)
  | crcModern (b : List Byte) (n : Nat)
  | ckField (v : Variant) (b : List Byte) (n : Nat)
  | ckValid (v : Variant) (b : List Byte) (n : Nat)
  -- the Frame Validator (R151 to R155, R157); `V` is a candidate set as a list in registry order (R175)
  | hsMatch (v : Variant) (b : List Byte)
  | frameMatch (v : Variant) (b : List Byte)
  | hsPending (v : Variant) (b : List Byte)
  | framePending (v : Variant) (b : List Byte)
  | classify (b : List Byte) (V : List Variant)
  | resync (b : List Byte) (V : List Variant)
  -- variant selection (R176)
  | select (l : Nat) (v : Variant)
  -- the Connection State Machine (R187 to R205)
  | enter (l : Nat) (S : ConnState)
  | demote (l : Nat)
  | t1ErrorToDisconnected (l : Nat)
  | t2PeriodicToParse (l : Nat)
  | t3DisconnectedToError (l : Nat)
  | t4DisconnectedFrame (l : Nat)
  | t5DisconnectedHandshake (l : Nat)
  | t6DisconnectedResync (l : Nat)
  | t7PairingFrame (l : Nat)
  | t8PairingNomatch (l : Nat)
  | t9PairingTimeout (l : Nat)
  | t10LinkLost (l : Nat)
  | t11StreamTime (l : Nat)
  | t12StreamingDemote (l : Nat)
  | t13StreamCount (l : Nat)
  | pairingHsRepeat (l : Nat)
  | frameAccept (l : Nat)
  | pendingStop (l : Nat)
  -- the interface operations (R251 to R261) and the tick of one link (R255)
  | reset
  | ingest (l : Nat) (bytes : List Byte)
  | process
  | processLink (l : Nat)
  | txPop (l : Nat)
  | readStatus (l : Nat)
deriving DecidableEq, Repr

end Sys2Proof
end

