-- ==== Sys2Proof/Config.lean ====
section
/-! DEFINITION. The parameters of the block (R6, R7, R69) with the spec's defaults, and the values the spec
leaves free, each an opaque constant that nothing in Lean can evaluate. -/

namespace Sys2Proof

/-- The parameters of R6 and R7, and the byte-order switch of R69. `FRAME_LEN`, `START_BYTE` and `N_VARIANTS`, which
R6 calls fixed, are constants (R8). -/
structure Config where
  /-- `N_LINKS` (R6) -/
  nLinks : Nat
  /-- `BUF_CAP`, in bytes (R6) -/
  bufCap : Nat
  /-- `TIME_W`, in bits (R6): the width of `now`, `t_last` and `t_entry` -/
  timeW : Nat
  /-- `TXQ_CAP`, in bytes (R6); none is unbounded, the value the spec takes (D29) -/
  txqCap : Option Nat
  /-- `DISCONNECT_LIMIT` (R7) -/
  disconnectLimit : Nat
  /-- `T_PAIR`, in milliseconds (R7) -/
  tPair : Nat
  /-- `T_STREAM`, in milliseconds (R7) -/
  tStream : Nat
  /-- `T_UNACTIVE`, in milliseconds (R7) -/
  tUnactive : Nat
  /-- `T_IDLE`, in milliseconds (R7) -/
  tIdle : Nat
  /-- `T_PROCESS_MAX`, in milliseconds (R7): a duty of the environment that the block does not read (R320) -/
  tProcessMax : Nat
  /-- `PKT_THRESH[legacy]`; 0 disables (R7) -/
  pktThreshLegacy : Nat
  /-- `PKT_THRESH[modern]`; 0 disables (R7) -/
  pktThreshModern : Nat
  /-- `LEGACY_CK_BIG_ENDIAN` (R69) -/
  legacyCkBigEndian : Bool
deriving DecidableEq, Repr

/-- The values of the last columns of R6 and R7, and the default of R69. -/
def Config.default : Config where
  nLinks := 2
  bufCap := 128
  timeW := 32
  txqCap := .none
  disconnectLimit := 30
  tPair := 3000
  tStream := 550
  tUnactive := 500
  tIdle := 20
  tProcessMax := 30
  pktThreshLegacy := 0
  pktThreshModern := 0
  legacyCkBigEndian := true

/-- The values R6 and R7 call legal. -/
abbrev Config.legal (c : Config) : Prop :=
  1 ≤ c.nLinks ∧ 128 ≤ c.bufCap ∧ 10 ≤ c.tIdle ∧ c.tIdle ≤ 20

/-- DESIGN CHOICE (log 19): what a transmit queue of finite capacity (first argument) holds after a message (third)
that does not fit behind its content (second); U7: the source says nothing. Only the capacity bounds it. -/
opaque Config.queueOverflow : Nat → List Byte → List Byte → List Byte

/-- DESIGN CHOICE (log 14): the bytes `enter(S)` emits for Pairing or StreamingPeriodic when no variant is
selected. R187 requires a selection there; the spec states no bytes for its absence. -/
opaque Config.unselectedLiteral : ConnState → List Byte

/-- DESIGN CHOICE (log 14): the threshold T13 compares with when no variant is selected (R204 names
`PKT_THRESH[sel]` only). -/
opaque Config.unselectedThresh : Nat

/-- DESIGN CHOICE (log 15): CLASSIFY of the empty sequence, which R155's operands exclude. -/
opaque Config.classifyOutside : List Variant → Class

/-- DESIGN CHOICE (log 15): RESYNC of a sequence R157's operands exclude. -/
opaque Config.resyncOutside : List Byte → List Variant → Nat

/-- The raw values a decoder takes from a frame (R231): the function-id byte and the fields R233 to R239 convert. The
spec gives no widths (N5), so none is chosen: a raw value is any number, but for the function id and the temperature,
which it calls bytes. Unsigned RPM is R233's word and signed current R237's; that gear, roll, error bits and voltage
are unsigned is a DESIGN CHOICE (log 21). -/
structure RawFields where
  fid : Byte
  rpm : Nat
  gear : Nat
  roll : Nat
  errBits : Nat
  voltage : Nat
  current : Int
  temp : Byte
deriving DecidableEq, Repr, Inhabited

/-- DESIGN CHOICE (log 21): the extraction function `fields(v, f)` of R231; the spec gives no layout. -/
opaque Config.fields : Variant → List Byte → RawFields

/-- DESIGN CHOICE (log 22): whether the power of R237, with `voltage × current` no multiple of 100, is the quotient
rounded up; else it is rounded down. The spec states no rounding (U6). -/
opaque Config.powerRoundsUp : Int → Bool

/-- DESIGN CHOICE (log 22): whether an inexact accrual of R241 is rounded up; the spec states no rounding. -/
opaque Config.accrualRoundsUp : Nat → Bool

/-- DESIGN CHOICE (log 22): what a field of `w` bits holds for a number outside its range; not stated (U6, N27). -/
opaque Config.outOfRange : (w : Nat) → Int → BitVec w

/-- DESIGN CHOICE (log 22): the speed-proxy from the RPM; not stated (R241, N5). -/
opaque Config.speedOf : Word16 → Nat

end Sys2Proof
end

