-- ==== Sys2Proof/Machine/State.lean ====
section
/-! DEFINITION. The state of the block: the per-link registers of R22 to R32, the output streams, the sampled
inputs, and the reasons a step stops. Plain data throughout. -/

namespace Sys2Proof.Machine

open Sys2Proof

/-! ## The byte memory -/

/-- An ingest buffer's readable content `buf[0..len)` (R22, R61): element `i` is the byte at offset `i`, so `len`
is the list's length. An offset `>= len` is not listed and holds no value (R62; log 9). -/
abbrev Memory := List Byte

/-- The buffer as (address, byte) pairs: offsets `0, 1, ..`, strictly rising, each listed once. -/
def Memory.cells (m : Memory) : List Host.Cell := m.zipIdx.map fun p => (p.2, p.1)

/-- The byte at an offset; none where nothing is listed (R62). -/
def Memory.read (m : Memory) (i : Nat) : Option Byte := m[i]?

/-- The form a buffer keeps: `len <= BUF_CAP` (R23). -/
abbrev Memory.wf (cap : Nat) (m : Memory) : Prop := m.length ≤ cap

/-! ## Events and results -/

/-- The kinds of error condition, in code order (R281). `framing` and `checksum` are names no rule raises
(R284). -/
inductive ErrKind where
  | framing
  | checksum
  | bufferOverflow
  | linkLost
  | protocolMismatch
deriving DecidableEq, Repr, Inhabited

/-- An element of `err_out`: `(l, kind, raw)` (R31, R288). -/
structure ErrEvent where
  link : Nat
  kind : ErrKind
  raw : Word16
deriving DecidableEq, Repr

/-- An element of `frame_out`: `(l, v, f)` (R30). -/
structure FrameEvent where
  link : Nat
  variant : Variant
  frame : List Byte
deriving DecidableEq, Repr

/-- What READ_STATUS returns, `(cs, sel, len, dcc, pkt)` (R261), with the codes of R25 and R29. -/
structure Status where
  cs : BitVec 3
  sel : BitVec 2
  len : Nat
  dcc : BitVec 8
  pkt : Word16
deriving DecidableEq, Repr

/-- The value an operation returns (R262; log 11). -/
inductive Result where
  /-- nothing has been returned since reset -/
  | none
  /-- TX_POP: one byte, or none (R260) -/
  | popped (b : Option Byte)
  /-- READ_STATUS (R261) -/
  | status (st : Status)
  /-- a 16-bit checksum value (R131 to R133) -/
  | word (w : Word16)
  /-- a truth value (R134, R151 to R154) -/
  | flag (b : Bool)
  /-- a classification (R155) -/
  | cls (c : Class)
  /-- a number of bytes to discard (R157) -/
  | count (k : Nat)
deriving DecidableEq, Repr

/-- One request of the environment: a line of a trace, `now` first, then the operation (R110). `word` is the
operation's word or a wire message, `link` the link operand (R107; log 2). -/
structure Request where
  now : Nat
  link : Nat
  word : List Byte
deriving DecidableEq, Repr

/-! ## The registers -/

/-- The registers of one link (R20): the buffer (R22, R23), `t_last` (R24), `cs` (R25), `t_entry` (R26), `dcc`
(R27), `pkt` (R28), `sel` (R29), `txq` (R32). The two timestamps are milliseconds below `2^TIME_W` (R6; log 8). -/
structure Link where
  buf : Memory
  tLast : Nat
  cs : ConnState
  tEntry : Nat
  dcc : BitVec 8
  pkt : Word16
  sel : Option Variant
  txq : List Byte
deriving DecidableEq, Repr

/-- A link after RESET, value by value as R38 tabulates it. -/
def Link.reset : Link where
  buf := []
  tLast := 0
  cs := .disconnected
  tEntry := 0
  dcc := 0
  pkt := 0
  sel := .none
  txq := []

/-- The state of the block. `cfg` holds the parameters, which no operation writes (R8, R313; log 7); `links` the
links `1..N_LINKS` in order (R20); `now` the time input as last sampled, below `2^TIME_W` (R33; log 8); `frameOut` and
`errOut` the output streams, oldest first (R30, R31); `result` the last returned value (log 11); `pending` the requests
issued and not yet taken, oldest first (log 1). -/
structure State where
  cfg : Config
  links : List Link
  now : Nat
  frameOut : List FrameEvent
  errOut : List ErrEvent
  result : Result
  pending : List Request
deriving DecidableEq, Repr

/-- The block right after reset: every link as R38 says, the streams empty, the parameters at their defaults.
`now`, `result` and `pending` are the model's choice (log 10). -/
def State.reset : State where
  cfg := Config.default
  links := List.replicate Config.default.nLinks Link.reset
  now := 0
  frameOut := []
  errOut := []
  result := .none
  pending := []

/-! ## Why a step stops -/

/-- Faults: there is none. Every operation completes on every state (R280, R303), so no constructor exists and
none is raised. -/
inductive Fault where
deriving DecidableEq, Repr

/-- Refusals. Each is outside the domain the spec gives its operations, so each is safe: the model stops where the
spec states no behaviour. -/
inductive Refusal where
  /-- Raised by an arm of `exec` whose instruction has no meaning yet. Safe. -/
  | notModelled (mnemonic : String)
  /-- Raised by an operation whose link index is outside `1..N_LINKS` (R302, U4). Safe. -/
  | badLink (l : Nat)
  /-- Raised by a checksum function called with `n < 2` or with fewer than `n` bytes (R135, U3). Safe. -/
  | badLength (have_ : Nat) (n : Nat)
  /-- Raised by the decoder for the operation codes 5 to 7, which are no operations (R107, U5). Safe. -/
  | reservedOp (code : Nat)
  /-- Raised by the decoder for an operation code followed by bytes the operation does not take (R107). Safe. -/
  | badOperand (code : Nat)
  /-- Raised by the decoder for a frame-shaped word whose checksum field does not confirm: the side condition is
  part of the encoding (R99, R100). Such bytes reach a link through INGEST. Safe. -/
  | noChecksum
  /-- Raised by the decoder for a word that opens neither an operation nor a wire message of the table (R107,
  R112). Such bytes reach a link through INGEST. Safe. -/
  | noMessage (first : Byte)
deriving DecidableEq, Repr

end Sys2Proof.Machine
end

