-- ==== Sys2Proof/Machine/Registry.lean ====
section
/-! DEFINITION. The Protocol Variant Registry (R170 to R175) and the literals of R93 to R105. -/

namespace Sys2Proof.Machine

open Sys2Proof

/-- `FRAME_LEN` (R6). -/
def frameLen : Nat := 16

/-- `START_BYTE` (R6). -/
def startByte : Byte := 0xAA

/-- R93: "AT+PASS=29688781". -/
def legacyHsReqBytes : List Byte :=
  [0x41, 0x54, 0x2B, 0x50, 0x41, 0x53, 0x53, 0x3D, 0x32, 0x39, 0x36, 0x38, 0x38, 0x37, 0x38, 0x31]

/-- R94: "AT+VERSION". -/
def modernHsReqBytes : List Byte := [0x41, 0x54, 0x2B, 0x56, 0x45, 0x52, 0x53, 0x49, 0x4F, 0x4E]

/-- R102: "+PASS=ONNDONKE". -/
def legacyHsRspBytes : List Byte :=
  [0x2B, 0x50, 0x41, 0x53, 0x53, 0x3D, 0x4F, 0x4E, 0x4E, 0x44, 0x4F, 0x4E, 0x4B, 0x45]

/-- R103. -/
def legacyPeriodicReqBytes : List Byte := [0xAA, 0x13, 0xEC, 0x07, 0x09, 0x6F, 0x28, 0xD7]

/-- R104. -/
def modernHsRspBytes : List Byte := [0xAA, 0x13, 0xEC, 0x07, 0x01, 0xF1, 0xA2, 0x5D]

/-- R105: the empty sequence. -/
def modernPeriodicReqBytes : List Byte := []

/-- Which function of the CRC Engine validates a frame (R130, R170). -/
inductive CrcAlg where
  | legacySum
  | modernCrc
deriving DecidableEq, Repr

/-- The byte order of the checksum field (R170). -/
inductive ByteOrder where
  | bigEndian
  | littleEndian
deriving DecidableEq, Repr

/-- A variant descriptor, field by field as R170 lists them. -/
structure Descriptor where
  name : Variant
  hsreq : List Byte
  hsrsp : List Byte
  start : Byte
  pol : Bool
  crc : CrcAlg
  ckOrder : ByteOrder
  perreq : List Byte
  frameLen : Nat
  pktThresh : Nat
deriving DecidableEq, Repr

/-- R172; the byte order under the switch of R69. -/
def legacyDescriptor (c : Config) : Descriptor where
  name := .legacy
  hsreq := legacyHsReqBytes
  hsrsp := legacyHsRspBytes
  start := startByte
  pol := false
  crc := .legacySum
  ckOrder := if c.legacyCkBigEndian then .bigEndian else .littleEndian
  perreq := legacyPeriodicReqBytes
  frameLen := Machine.frameLen
  pktThresh := c.pktThreshLegacy

/-- R173. -/
def modernDescriptor (c : Config) : Descriptor where
  name := .modern
  hsreq := modernHsReqBytes
  hsrsp := modernHsRspBytes
  start := startByte
  pol := true
  crc := .modernCrc
  ckOrder := .littleEndian
  perreq := modernPeriodicReqBytes
  frameLen := Machine.frameLen
  pktThresh := c.pktThreshModern

/-- The registry: constant, ordered, legacy first (R171, R174). -/
def registry (c : Config) : List Descriptor := [legacyDescriptor c, modernDescriptor c]

/-- `registry[v]`. -/
def descriptor (c : Config) : Variant → Descriptor
  | .legacy => legacyDescriptor c
  | .modern => modernDescriptor c

/-- The handshake request literal of a variant; the same under every configuration. -/
def hsreq : Variant → List Byte
  | .legacy => legacyHsReqBytes
  | .modern => modernHsReqBytes

/-- The candidate set `V(sel)`: all of the registry while nothing is selected, then the selected variant alone
(R175). -/
def candidates (c : Config) : Option Variant → List Variant
  | .none => (registry c).map Descriptor.name
  | .some v => [v]

/-- `PKT_THRESH[sel]` (R204); a free value while nothing is selected (log 14). -/
def pktThresh (c : Config) : Option Variant → Nat
  | .none => Config.unselectedThresh
  | .some v => (descriptor c v).pktThresh

/-- The handshake response `enter(Pairing)` emits (R187); a free value while nothing is selected (log 14). -/
def responseOf (c : Config) : Option Variant → List Byte
  | .none => Config.unselectedLiteral .pairing
  | .some v => (descriptor c v).hsrsp

/-- The periodic request `enter(StreamingPeriodic)` emits (R187); a free value while nothing is selected
(log 14). -/
def periodicOf (c : Config) : Option Variant → List Byte
  | .none => Config.unselectedLiteral .streamingPeriodic
  | .some v => (descriptor c v).perreq

end Sys2Proof.Machine
end

