-- ==== Sys2Proof/Machine/Checksum.lean ====
section
/-! DEFINITION. The functions of the CRC Engine (R130 to R137), pure in their operands. -/

namespace Sys2Proof.Machine

open Sys2Proof

/-- `zext_16` (R12). -/
def zext16 (v : Byte) : Word16 := v.setWidth 16

/-- The covered bytes `b[0..n-2)` (R130). -/
def covered (b : List Byte) (n : Nat) : List Byte := b.take (n - 2)

/-- The sum of R131, modulo 2^16, byte by byte from `s`. -/
def sumBytes : Word16 → List Byte → Word16
  | s, [] => s
  | s, x :: xs => sumBytes (s + zext16 x) xs

/-- `CRC_LEGACY(b, n)` (R131). -/
def crcLegacy (b : List Byte) (n : Nat) : Word16 := sumBytes 0 (covered b n)

/-- One of the eight iterations of R132: bit 0 is tested before the logical shift. -/
def crcShift (r : Word16) : Word16 := if r.getLsbD 0 then (r >>> 1) ^^^ 0xA001 else r >>> 1

/-- One covered byte of R132: exclusive or into the low byte, then eight shifts. -/
def crcByte (r : Word16) (x : Byte) : Word16 := Nat.iterate crcShift 8 (r ^^^ zext16 x)

/-- The loop of R132 over the covered bytes, from register value `r`. -/
def crcBytes : Word16 → List Byte → Word16
  | r, [] => r
  | r, x :: xs => crcBytes (crcByte r x) xs

/-- The seed of R132. -/
def crcSeed : Word16 := 0x7F3C

/-- `CRC_MODERN(b, n)` (R132). -/
def crcModern (b : List Byte) (n : Nat) : Word16 := crcBytes crcSeed (covered b n)

/-- The function the descriptor selects (R130). -/
def crcOf : CrcAlg → List Byte → Nat → Word16
  | .legacySum => crcLegacy
  | .modernCrc => crcModern

/-- A 16-bit value from the two bytes of the field, first byte first (R68, R69, R98). -/
def fieldValue : ByteOrder → Byte → Byte → Word16
  | .bigEndian, x, y => (zext16 x <<< 8) ||| zext16 y
  | .littleEndian, x, y => zext16 x ||| (zext16 y <<< 8)

/-- The two bytes of the field that hold a value: the inverse of `fieldValue`. -/
def fieldBytes : ByteOrder → Word16 → List Byte
  | .bigEndian, w => [w.extractLsb' 8 8, w.extractLsb' 0 8]
  | .littleEndian, w => [w.extractLsb' 0 8, w.extractLsb' 8 8]

/-- The byte at an offset the caller has checked to be inside the sequence (R63). -/
def byteAt (b : List Byte) (i : Nat) : Byte := b.getD i 0

/-- `CK_FIELD(v, b, n)` (R133). -/
def ckField (c : Config) (v : Variant) (b : List Byte) (n : Nat) : Word16 :=
  fieldValue (descriptor c v).ckOrder (byteAt b (n - 2)) (byteAt b (n - 1))

/-- The checksum the engine computes for variant `v` (R130, R134). -/
def crcFor (c : Config) (v : Variant) (b : List Byte) (n : Nat) : Word16 :=
  crcOf (descriptor c v).crc b n

/-- `CK_VALID(v, b, n)` (R134): all 16 bits compared. -/
def ckValid (c : Config) (v : Variant) (b : List Byte) (n : Nat) : Bool :=
  crcFor c v b n == ckField c v b n

end Sys2Proof.Machine
end

