-- ==== Sys2Proof/Machine/Flags.lean ====
section
/-! DEFINITION. The block has no flags (R34). What stands in for them is the classification of the buffer, computed
afresh at every iteration: the predicates of the Frame Validator (R151 to R154), CLASSIFY (R155), RESYNC (R157). -/

namespace Sys2Proof.Machine

open Sys2Proof

/-- `HS_MATCH(v, b)` (R151). -/
def hsMatch (v : Variant) (b : List Byte) : Bool :=
  decide ((hsreq v).length ≤ b.length) && b.take (hsreq v).length == hsreq v

/-- `b[1][7] = pol(v)` (R152, R154). -/
def polarityOk (c : Config) (v : Variant) (b : List Byte) : Bool :=
  (byteAt b 1).getLsbD 7 == (descriptor c v).pol

/-- `FRAME_MATCH(v, b)` (R152): the conjuncts left to right. -/
def frameMatch (c : Config) (v : Variant) (b : List Byte) : Bool :=
  decide ((descriptor c v).frameLen ≤ b.length) && byteAt b 0 == (descriptor c v).start &&
    polarityOk c v b && ckValid c v (b.take (descriptor c v).frameLen) (descriptor c v).frameLen

/-- `HS_PENDING(v, b)` (R153). -/
def hsPending (v : Variant) (b : List Byte) : Bool :=
  decide (1 ≤ b.length) && decide (b.length < (hsreq v).length) && b == (hsreq v).take b.length

/-- `FRAME_PENDING(v, b)` (R154). -/
def framePending (c : Config) (v : Variant) (b : List Byte) : Bool :=
  decide (1 ≤ b.length) && decide (b.length < (descriptor c v).frameLen) &&
    byteAt b 0 == (descriptor c v).start && (decide (b.length < 2) || polarityOk c v b)

/-- The first loop of CLASSIFY (R155): a complete match, variant by variant, handshake before frame. -/
def firstMatch (c : Config) (b : List Byte) : List Variant → Option Class
  | [] => .none
  | v :: vs =>
    if hsMatch v b then .some (.handshake v)
    else if frameMatch c v b then .some (.frame v)
    else firstMatch c b vs

/-- `CLASSIFY(b, V)` (R155). -/
def classify (c : Config) (b : List Byte) (V : List Variant) : Class :=
  match firstMatch c b V with
  | .some r => r
  | .none => if V.any fun v => hsPending v b || framePending c v b then .pending else .noMatch

/-- The scan of R157 over the rest of the sequence: `k` is the offset of `b`'s first byte. -/
def resyncScan (c : Config) (V : List Variant) : List Byte → Nat → Nat
  | [], k => k
  | x :: xs, k => if classify c (x :: xs) V ≠ .noMatch then k else resyncScan c V xs (k + 1)

/-- `RESYNC(b, V)` (R157): one forward pass from offset 1. -/
def resync (c : Config) (b : List Byte) (V : List Variant) : Nat :=
  match b with
  | [] => 0
  | _ :: xs => resyncScan c V xs 1

/-! ## Codes (R25, R29, R281) -/

/-- The code of a connection state (R25). -/
def csCode : ConnState → BitVec 3
  | .disconnected => 0
  | .pairing => 1
  | .streamingParse => 2
  | .streamingPeriodic => 3
  | .error => 4

/-- The code of a selection (R29). -/
def selCode : Option Variant → BitVec 2
  | .none => 0
  | .some .legacy => 1
  | .some .modern => 2

/-- The code of an error kind (R281). -/
def kindCode : ErrKind → BitVec 3
  | .framing => 0
  | .checksum => 1
  | .bufferOverflow => 2
  | .linkLost => 3
  | .protocolMismatch => 4

end Sys2Proof.Machine
end

