-- ==== Sys2Proof/Machine/Ops.lean ====
section
/-! DEFINITION. The shared operations: time and counters (R13, R16), the buffer primitives (R63 to R66), events
(R14), the two building blocks `enter` and `demote` (R187, R188), the entry into Error and the return from it (R289,
R290), and the one place where a link of the state is read and written. -/

namespace Sys2Proof.Machine

open Sys2Proof

/-! ## Time and counters -/

/-- `elapsed(t) = (now - t) mod 2^TIME_W` (R13). -/
def elapsed (c : Config) (now t : Nat) : Nat := (((now : Int) - (t : Int)) % 2 ^ c.timeW).toNat

/-- A value of the time input as the block samples it, modulo `2^TIME_W` (R33). -/
def sample (c : Config) (t : Nat) : Nat := t % 2 ^ c.timeW

/-- `sat_inc_w(c)` (R16). -/
def satInc {w : Nat} (c : BitVec w) : BitVec w := if c = BitVec.allOnes w then c else c + 1

/-! ## The buffer primitives -/

/-- `MemRead(l, i, n)` (R63): `buf[i..i+n)`; every caller has checked `i + n <= len`. -/
def memRead (m : Memory) (i n : Nat) : List Byte := (m.drop i).take n

/-- `MemWrite(l, i, v)` (R63), on the list form: an offset inside is replaced, the offset `len` extends the readable
part, and a byte written beyond `len` is no state (R62). Used only inside `append`, at offset `len`. -/
def memWrite (m : Memory) (i : Nat) (v : Byte) : Memory :=
  if i < m.length then m.set i v else if i = m.length then m ++ [v] else m

/-- `Append(l, v)` (R64): the link after it, and whether the byte was stored. -/
def append (c : Config) (now : Nat) (v : Byte) (L : Link) : Link × Bool :=
  if L.buf.length < c.bufCap then
    ({ L with buf := memWrite L.buf L.buf.length v, tLast := now }, true)
  else (L, false)

/-- Append every byte in order; the link after them, and how many were dropped (R252). -/
def appendAll (c : Config) (now : Nat) : List Byte → Link → Link × Nat
  | [], L => (L, 0)
  | v :: vs, L =>
    match append c now v L with
    | (L', true) => appendAll c now vs L'
    | (L', false) => let r := appendAll c now vs L'; (r.1, r.2 + 1)

/-- `Consume(l, k)` (R65): `buf <- buf[k..len)`. -/
def consume (k : Nat) (L : Link) : Link := { L with buf := L.buf.drop k }

/-- `Clear(l)` (R66). -/
def clear (L : Link) : Link := { L with buf := [] }

/-- The idle reset (R253, R258): a non-empty buffer whose newest byte is older than `T_IDLE` is cleared. -/
def idleReset (c : Config) (now : Nat) (L : Link) : Link :=
  if 0 < L.buf.length ∧ c.tIdle < elapsed c now L.tLast then clear L else L

/-- A transmit queue after a message: the message at its tail, whole (R14, R259). Where a finite `TXQ_CAP` leaves it no
room the content is a free value within the capacity (U7, log 19). -/
def enqueue (c : Config) (q m : List Byte) : List Byte :=
  match c.txqCap with
  | .none => q ++ m
  | .some n => if m = [] ∨ q.length + m.length ≤ n then q ++ m else (Config.queueOverflow n q m).take n

/-- The content of a transmit queue is within `TXQ_CAP` (R6, R32). -/
def queueOk (c : Config) (q : List Byte) : Bool :=
  match c.txqCap with
  | .none => true
  | .some n => decide (q.length ≤ n)

/-- `tx(l, m)` (R14, R259). -/
def tx (c : Config) (m : List Byte) (L : Link) : Link := { L with txq := enqueue c L.txq m }

/-! ## The work of one operation on one link -/

/-- What an operation on one link has done so far: the link's registers, the frames delivered and the kinds raised,
oldest first, and the transient flag `discarded` of a tick (R207). -/
structure Work where
  link : Link
  frames : List (Variant × List Byte)
  errs : List ErrKind
  discarded : Bool
deriving DecidableEq, Repr

/-- An operation begins: nothing delivered, nothing raised. -/
def Work.start (L : Link) : Work := { link := L, frames := [], errs := [], discarded := false }

/-- Change the link's registers. -/
def Work.upd (w : Work) (f : Link → Link) : Work := { w with link := f w.link }

/-- `raise kind(l)` (R14): append the event and go on. -/
def Work.raise (k : ErrKind) (w : Work) : Work := { w with errs := w.errs ++ [k] }

/-- `deliver(l, v, f)` (R14). -/
def Work.deliver (v : Variant) (f : List Byte) (w : Work) : Work := { w with frames := w.frames ++ [(v, f)] }

/-- `SELECT(v)` (R176): first match, sticky. -/
def select (v : Variant) (L : Link) : Link := if L.sel = .none then { L with sel := .some v } else L

/-- The entry action of a state (R187). -/
def entryAction (c : Config) (S : ConnState) (L : Link) : Link :=
  match S with
  | .disconnected => { L with sel := .none }
  | .pairing => tx c (responseOf c L.sel) L
  | .streamingParse => { L with pkt := 0 }
  | .streamingPeriodic => tx c (periodicOf c L.sel) L
  | .error => L

/-- `enter(S)` (R187): the only writer of `cs`. -/
def enter (c : Config) (now : Nat) (S : ConnState) (L : Link) : Link :=
  entryAction c S { L with cs := S, tEntry := now }

/-- `demote()` (R188). -/
def demote (c : Config) (now : Nat) (L : Link) : Link :=
  enter c now .disconnected { L with dcc := satInc L.dcc }

/-- Taking the exception: the entry into Error of R287 and R289, in the order R289 gives its writes. -/
def takeMismatch (c : Config) (now : Nat) (w : Work) : Work :=
  (w.upd (enter c now .error)).raise .protocolMismatch

/-- Returning from it: `dcc <- 0; enter(Disconnected)` (R190, R290). -/
def leaveError (c : Config) (now : Nat) (L : Link) : Link :=
  enter c now .disconnected { L with dcc := 0 }

/-- Losing the link: `raise LinkLost(l); demote()` (R199, R286). -/
def takeLinkLost (c : Config) (now : Nat) (w : Work) : Work :=
  (w.raise .linkLost).upd (demote c now)

/-! ## Links of the state -/

/-- `L(l)`: link `l`, counted from 1; none outside `1..N_LINKS` (R11, R20). -/
def State.link? (s : State) (l : Nat) : Option Link :=
  match l with
  | 0 => .none
  | k + 1 => s.links[k]?

/-- Write the registers of link `l`. -/
def State.setLink (s : State) (l : Nat) (L : Link) : State :=
  match l with
  | 0 => s
  | k + 1 => { s with links := s.links.set k L }

/-- The event a kind raised on link `l` becomes: `raw` is 0 (R281). -/
def errEvent (l : Nat) (k : ErrKind) : ErrEvent := { link := l, kind := k, raw := 0 }

/-- The element a delivered frame of link `l` becomes (R30). -/
def frameEvent (l : Nat) (p : Variant × List Byte) : FrameEvent := { link := l, variant := p.1, frame := p.2 }

/-- Append frames delivered on link `l` to `frame_out`. -/
def State.addFrames (s : State) (l : Nat) (fs : List (Variant × List Byte)) : State :=
  { s with frameOut := s.frameOut ++ fs.map (frameEvent l) }

/-- Append events raised on link `l` to `err_out`. -/
def State.addErrs (s : State) (l : Nat) (ks : List ErrKind) : State :=
  { s with errOut := s.errOut ++ ks.map (errEvent l) }

/-- What an operation on link `l` leaves: its registers, its frames and its events (R20: no other link). -/
def State.commit (s : State) (l : Nat) (w : Work) : State :=
  ((s.setLink l w.link).addFrames l w.frames).addErrs l w.errs

/-- The value an operation returns. -/
def State.answer (s : State) (r : Result) : State := { s with result := r }

end Sys2Proof.Machine
end

