-- ==== Sys2Proof/Machine/Operands.lean ====
section
/-! DEFINITION. The operand forms: a link index (R107, R302), a message and its length (R135), the candidate set of a
link (R175), the buffer's classification as the operand of a Phase B rule (43_connection_fsm.md section 4). -/

namespace Sys2Proof.Machine

open Sys2Proof

/-- Run `f` on link `l`, given as an index the block has; nothing where it has none. -/
def State.updLink (s : State) (l : Nat) (f : Config → Nat → Work → Work) : State :=
  match s.link? l with
  | .none => s
  | .some L => s.commit l (f s.cfg s.now (Work.start L))

/-- The link operand: `f` runs on link `l`, and an index outside `1..N_LINKS` is refused (U4). -/
def onLink (l : Nat) (s : State) (f : Config → Nat → Work → Work) : Host.Outcome State Fault Refusal :=
  match s.link? l with
  | .none => .refused (.badLink l)
  | .some _ => .next (s.updLink l f)

/-- An operation on link `l` that changes its registers only. -/
def onRegs (l : Nat) (s : State) (f : Config → Nat → Link → Link) : Host.Outcome State Fault Refusal :=
  onLink l s fun c now w => w.upd (f c now)

/-- The operands of a checksum function: `n >= 2` and `|b| >= n`, else refused (R135, U3). -/
def onMessage (b : List Byte) (n : Nat) (s : State) (r : Result) : Host.Outcome State Fault Refusal :=
  if 2 ≤ n ∧ n ≤ b.length then .next (s.answer r) else .refused (.badLength b.length n)

/-- `CLASSIFY(buf[0..len), V(sel))` of a link (R155, R175). -/
def classOf (c : Config) (L : Link) : Class := classify c L.buf (candidates c L.sel)

/-- The number T6 discards, `RESYNC(buf[0..len), V(sel))` (R195). -/
def resyncOf (c : Config) (L : Link) : Nat := resync c L.buf (candidates c L.sel)

/-- The status tuple of a link (R261). -/
def statusOf (L : Link) : Status where
  cs := csCode L.cs
  sel := selCode L.sel
  len := L.buf.length
  dcc := L.dcc
  pkt := L.pkt

end Sys2Proof.Machine
end

