-- ==== Sys2Proof/Machine/Fsm.lean ====
section
/-! DEFINITION. Variant selection (R176) and the Connection State Machine (43_connection_fsm.md): the actions of its
rules, each rule under its condition, and their instructions. A rule whose condition does not hold does not fire:
nothing changes (log 12). -/

namespace Sys2Proof.Machine

open Sys2Proof

/-! ## Actions -/

/-- T13 (R204): `cs = StreamingParse`, the threshold is not 0, and `pkt` has reached it. -/
def t13 (c : Config) (now : Nat) (L : Link) : Link :=
  if L.cs = .streamingParse ∧ pktThresh c L.sel ≠ 0 ∧ pktThresh c L.sel ≤ L.pkt.toNat then
    enter c now .streamingPeriodic L
  else L

/-- The frame-accept action (R203) for a frame of variant `v` at the front of the buffer. -/
def accept (c : Config) (now : Nat) (v : Variant) (w : Work) : Work :=
  let w1 := w.upd fun L => { L with dcc := 0 }
  let w2 := w1.deliver v (memRead w1.link.buf 0 frameLen)
  (w2.upd fun L => { consume frameLen L with pkt := satInc L.pkt }).upd (t13 c now)

/-- T4's action (R193): SELECT, enter StreamingParse, accept. -/
def actT4 (c : Config) (now : Nat) (v : Variant) (w : Work) : Work :=
  accept c now v (w.upd fun L => enter c now .streamingParse (select v L))

/-- T5's action (R194): SELECT, consume the request, enter Pairing. -/
def actT5 (c : Config) (now : Nat) (v : Variant) (L : Link) : Link :=
  enter c now .pairing (consume (hsreq v).length (select v L))

/-- T6's action (R195): discard what RESYNC says, and note it for Phase C. -/
def actT6 (c : Config) (w : Work) : Work :=
  { w with link := consume (resyncOf c w.link) w.link, discarded := true }

/-- T7's action (R196): enter StreamingParse, accept. -/
def actT7 (c : Config) (now : Nat) (v : Variant) (w : Work) : Work :=
  accept c now v (w.upd (enter c now .streamingParse))

/-- The action of R202: the repeated request is consumed and nothing else happens. -/
def actRepeat (v : Variant) (L : Link) : Link := consume (hsreq v).length L

/-! ## Rules of Phase A, under their conditions -/

/-- T1 (R190). -/
def ruleT1 (c : Config) (now : Nat) (L : Link) : Link :=
  if L.cs = .error then leaveError c now L else L

/-- T2 (R191). -/
def ruleT2 (c : Config) (now : Nat) (L : Link) : Link :=
  if L.cs = .streamingPeriodic then enter c now .streamingParse L else L

/-- Whether the disconnect-cycle counter exceeds its limit (R192). -/
def overLimit (c : Config) (L : Link) : Bool := decide (c.disconnectLimit < L.dcc.toNat)

/-- T3 (R192). -/
def ruleT3 (c : Config) (now : Nat) (w : Work) : Work :=
  if w.link.cs = .disconnected ∧ overLimit c w.link then takeMismatch c now w else w

/-- T9 (R198). -/
def ruleT9 (c : Config) (now : Nat) (L : Link) : Link :=
  if L.cs = .pairing ∧ c.tPair < elapsed c now L.tEntry then demote c now L else L

/-- T10 (R199). -/
def ruleT10 (c : Config) (now : Nat) (w : Work) : Work :=
  if w.link.cs = .streamingParse ∧ c.tUnactive < elapsed c now w.link.tLast then takeLinkLost c now w else w

/-- T11 (R200): T10's condition does not hold, and the time threshold is reached. -/
def ruleT11 (c : Config) (now : Nat) (L : Link) : Link :=
  if L.cs = .streamingParse ∧ ¬ c.tUnactive < elapsed c now L.tLast ∧ c.tStream ≤ elapsed c now L.tEntry then
    enter c now .streamingPeriodic L
  else L

/-! ## Rules of Phase B, under their conditions

`classOf` is the classification the section's rules call `c`. A rule whose pair of state and class is not the one
held does nothing. -/

/-- T4 (R193). -/
def ruleT4 (c : Config) (now : Nat) (w : Work) : Work :=
  match w.link.cs, classOf c w.link with
  | .disconnected, .frame v => actT4 c now v w
  | _, _ => w

/-- T5 (R194). -/
def ruleT5 (c : Config) (now : Nat) (L : Link) : Link :=
  match L.cs, classOf c L with
  | .disconnected, .handshake v => actT5 c now v L
  | _, _ => L

/-- T6 (R195); an empty buffer is not classified (R155). -/
def ruleT6 (c : Config) (w : Work) : Work :=
  if w.link.cs = .disconnected ∧ 0 < w.link.buf.length ∧ classOf c w.link = .noMatch then actT6 c w else w

/-- T7 (R196). -/
def ruleT7 (c : Config) (now : Nat) (w : Work) : Work :=
  match w.link.cs, classOf c w.link with
  | .pairing, .frame v => actT7 c now v w
  | _, _ => w

/-- T8 (R197). -/
def ruleT8 (c : Config) (now : Nat) (L : Link) : Link :=
  if L.cs = .pairing ∧ 0 < L.buf.length ∧ classOf c L = .noMatch then demote c now L else L

/-- T12 (R201). -/
def ruleT12 (c : Config) (now : Nat) (L : Link) : Link :=
  match L.cs, classOf c L with
  | .streamingParse, .handshake _ => demote c now L
  | .streamingPeriodic, .handshake _ => demote c now L
  | .streamingParse, .noMatch => if 0 < L.buf.length then demote c now L else L
  | .streamingPeriodic, .noMatch => if 0 < L.buf.length then demote c now L else L
  | _, _ => L

/-- The repeated handshake request in Pairing (R202). -/
def ruleRepeat (c : Config) (L : Link) : Link :=
  match L.cs, classOf c L with
  | .pairing, .handshake v => actRepeat v L
  | _, _ => L

/-- The frame-accept action where the buffer opens with a frame, in the state held (R203). -/
def ruleAccept (c : Config) (now : Nat) (w : Work) : Work :=
  match classOf c w.link with
  | .frame v => accept c now v w
  | _ => w

/-! ## The instructions -/

/-- SELECT (R176). -/
def execSelect (l : Nat) (v : Variant) (s : State) : Host.Outcome State Fault Refusal :=
  onRegs l s fun _ _ => select v

/-- ENTER (R187). -/
def execEnter (l : Nat) (S : ConnState) (s : State) : Host.Outcome State Fault Refusal :=
  onRegs l s fun c now => enter c now S

/-- DEMOTE (R188). -/
def execDemote (l : Nat) (s : State) : Host.Outcome State Fault Refusal := onRegs l s demote

/-- T1, Error to Disconnected (R190). -/
def execT1 (l : Nat) (s : State) : Host.Outcome State Fault Refusal := onRegs l s ruleT1

/-- T2, StreamingPeriodic to StreamingParse (R191). -/
def execT2 (l : Nat) (s : State) : Host.Outcome State Fault Refusal := onRegs l s ruleT2

/-- T3, Disconnected to Error (R192). -/
def execT3 (l : Nat) (s : State) : Host.Outcome State Fault Refusal := onLink l s ruleT3

/-- T4, Disconnected to StreamingParse on a frame (R193). -/
def execT4 (l : Nat) (s : State) : Host.Outcome State Fault Refusal := onLink l s ruleT4

/-- T5, Disconnected to Pairing on a handshake request (R194). -/
def execT5 (l : Nat) (s : State) : Host.Outcome State Fault Refusal := onRegs l s ruleT5

/-- T6, resynchronise in Disconnected (R195). -/
def execT6 (l : Nat) (s : State) : Host.Outcome State Fault Refusal := onLink l s fun c _ => ruleT6 c

/-- T7, Pairing to StreamingParse on the first frame (R196). -/
def execT7 (l : Nat) (s : State) : Host.Outcome State Fault Refusal := onLink l s ruleT7

/-- T8, Pairing to Disconnected on unrecognisable bytes (R197). -/
def execT8 (l : Nat) (s : State) : Host.Outcome State Fault Refusal := onRegs l s ruleT8

/-- T9, Pairing to Disconnected on timeout (R198). -/
def execT9 (l : Nat) (s : State) : Host.Outcome State Fault Refusal := onRegs l s ruleT9

/-- T10, StreamingParse to Disconnected on link lost (R199). -/
def execT10 (l : Nat) (s : State) : Host.Outcome State Fault Refusal := onLink l s ruleT10

/-- T11, StreamingParse to StreamingPeriodic on elapsed time (R200). -/
def execT11 (l : Nat) (s : State) : Host.Outcome State Fault Refusal := onRegs l s ruleT11

/-- T12, streaming to Disconnected on a handshake request or unrecognisable bytes (R201). -/
def execT12 (l : Nat) (s : State) : Host.Outcome State Fault Refusal := onRegs l s ruleT12

/-- T13, StreamingParse to StreamingPeriodic on packet count (R204). -/
def execT13 (l : Nat) (s : State) : Host.Outcome State Fault Refusal := onRegs l s t13

/-- PAIRING_HS_REPEAT (R202). -/
def execPairingHsRepeat (l : Nat) (s : State) : Host.Outcome State Fault Refusal :=
  onRegs l s fun c _ => ruleRepeat c

/-- FRAME_ACCEPT (R203). -/
def execFrameAccept (l : Nat) (s : State) : Host.Outcome State Fault Refusal := onLink l s ruleAccept

/-- PENDING_STOP (R205): nothing is consumed and no state changes. -/
def execPendingStop (l : Nat) (s : State) : Host.Outcome State Fault Refusal := onRegs l s fun _ _ L => L

end Sys2Proof.Machine
end

