-- ==== Sys2Proof/Machine/Manager.lean ====
section
/-! DEFINITION. The Link Manager (45_link_manager.md): RESET, INGEST, PROCESS with the tick of one link, TX_POP,
READ_STATUS. -/

namespace Sys2Proof.Machine

open Sys2Proof

/-! ## INGEST -/

/-- INGEST on one link (R252): the idle reset (R253), the appends in order, one BufferOverflow if a byte was
dropped. -/
def ingest (c : Config) (now : Nat) (bytes : List Byte) (w : Work) : Work :=
  let r := appendAll c now bytes (idleReset c now w.link)
  let w' := { w with link := r.1 }
  if 0 < r.2 then w'.raise .bufferOverflow else w'

/-! ## The tick of one link -/

/-- Phase A (R255): `cs` is examined once and at most one rule fires; the flag says that the tick ends (T3). -/
def phaseA (c : Config) (now : Nat) (w : Work) : Work × Bool :=
  match w.link.cs with
  | .error => (w.upd (leaveError c now), false)
  | .streamingPeriodic => (w.upd (enter c now .streamingParse), false)
  | .disconnected => if overLimit c w.link then (takeMismatch c now w, true) else (w, false)
  | .pairing => (w.upd (ruleT9 c now), false)
  | .streamingParse =>
    if c.tUnactive < elapsed c now w.link.tLast then (takeLinkLost c now w, false)
    else if c.tStream ≤ elapsed c now w.link.tEntry then (w.upd (enter c now .streamingPeriodic), false)
    else (w, false)

/-- One iteration of Phase B for a classification: the work after it, and whether the loop goes on (R255). `error`
cannot be the state here; its arms follow the pseudocode's text (log 17). -/
def phaseBStep (c : Config) (now : Nat) (w : Work) : Class → Work × Bool
  | .pending => (w, false)
  | .handshake v =>
    match w.link.cs with
    | .disconnected => (w.upd (actT5 c now v), true)
    | .pairing => (w.upd (actRepeat v), true)
    | .streamingParse => (w.upd (demote c now), true)
    | .streamingPeriodic => (w.upd (demote c now), true)
    | .error => (w, false)
  | .frame v =>
    match w.link.cs with
    | .disconnected => (actT4 c now v w, true)
    | .pairing => (actT7 c now v w, true)
    | _ => (accept c now v w, true)
  | .noMatch =>
    match w.link.cs with
    | .disconnected => (actT6 c w, true)
    | _ => (w.upd (demote c now), true)

/-- The loop of Phase B (R255), at most `fuel` iterations; each classifies afresh with the candidate set of the
moment (R256). -/
def phaseB (c : Config) (now : Nat) : Nat → Work → Work
  | 0, w => w
  | fuel + 1, w =>
    if w.link.buf = [] then w
    else
      match phaseBStep c now w (classOf c w.link) with
      | (w', true) => phaseB c now fuel w'
      | (w', false) => w'

/-- The bound on Phase B's iterations (R214). -/
def phaseBBound (L : Link) : Nat := 2 * L.buf.length + 1

/-- Phase C (R255): the failed-recognition count (R207), then the idle reset (R258). -/
def phaseC (c : Config) (now : Nat) (startedDisc : Bool) (w : Work) : Work :=
  let w' := if startedDisc ∧ w.link.cs = .disconnected ∧ w.discarded then
      w.upd fun L => { L with dcc := satInc L.dcc }
    else w
  w'.upd (idleReset c now)

/-- `PROCESS_LINK(l)` (R255). -/
def processLink (c : Config) (now : Nat) (w : Work) : Work :=
  match phaseA c now w with
  | (w1, true) => w1
  | (w1, false) =>
    phaseC c now (w1.link.cs = .disconnected) (phaseB c now (phaseBBound w1.link) { w1 with discarded := false })

/-- PROCESS over the links in the order given (R254). -/
def processLinks (s : State) (ls : List Nat) : State := ls.foldl (fun s l => s.updLink l processLink) s

/-- The link indices in ascending order (R254). -/
def State.linkIndices (s : State) : List Nat := List.range' 1 s.cfg.nLinks

/-! ## The instructions -/

/-- RESET (R251): every link as R38 says, the streams empty; no emission, no event. -/
def execReset (s : State) : Host.Outcome State Fault Refusal :=
  .next { s with
    links := List.replicate s.cfg.nLinks Link.reset
    frameOut := []
    errOut := []
    result := .none }

/-- INGEST (R252, R253). -/
def execIngest (l : Nat) (bytes : List Byte) (s : State) : Host.Outcome State Fault Refusal :=
  onLink l s fun c now => ingest c now bytes

/-- PROCESS (R254): every link, ascending, at the one sampled `now`. -/
def execProcess (s : State) : Host.Outcome State Fault Refusal := .next (processLinks s s.linkIndices)

/-- PROCESS_LINK (R255). -/
def execProcessLink (l : Nat) (s : State) : Host.Outcome State Fault Refusal := onLink l s processLink

/-- TX_POP (R260): the head of `txq`, or none. -/
def execTxPop (l : Nat) (s : State) : Host.Outcome State Fault Refusal :=
  match s.link? l with
  | .none => .refused (.badLink l)
  | .some L => .next ((s.setLink l { L with txq := L.txq.tail }).answer (.popped L.txq.head?))

/-- READ_STATUS (R261): no side effect. -/
def execReadStatus (l : Nat) (s : State) : Host.Outcome State Fault Refusal :=
  match s.link? l with
  | .none => .refused (.badLink l)
  | .some L => .next (s.answer (.status (statusOf L)))

end Sys2Proof.Machine
end

