-- ==== Sys2Proof/Machine/Wire.lean ====
section
/-! DEFINITION. The wire messages (30_encoding.md): their bytes, and their instructions. A message in arrives on a link
(R298: the UART receiver hands it to INGEST; log 4); a message out is emitted on a link, `tx(l, m)` (R259; log 5). -/

namespace Sys2Proof.Machine

open Sys2Proof

/-- Bytes 0 to 13 of a data frame (R95): start byte, polarity bit with the tag bits 6:0, payload. -/
def frameBody (c : Config) (v : Variant) (tag : BitVec 7) (payload : List Byte) : List Byte :=
  (descriptor c v).start :: (BitVec.ofBool (descriptor c v).pol ++ tag : BitVec 8) :: payload

/-- The 16 bytes of a data frame (R95, R99, R100): the body and the checksum the side condition fixes. -/
def frameBytes (c : Config) (v : Variant) (tag : BitVec 7) (payload : List Byte) : List Byte :=
  let body := frameBody c v tag payload
  body ++ fieldBytes (descriptor c v).ckOrder (crcFor c v body (body.length + 2))

/-- A message of the wire arrives on link `l`: INGEST of its bytes (R298). -/
def receive (l : Nat) (s : State) (m : List Byte) : Host.Outcome State Fault Refusal :=
  onLink l s fun c now => ingest c now m

/-- A message is emitted on link `l`: `tx(l, m)` (R14, R259). -/
def emit (l : Nat) (s : State) (m : List Byte) : Host.Outcome State Fault Refusal := onRegs l s fun c _ => tx c m

/-- LEGACY_HS_REQ (R93). -/
def execLegacyHsReq (l : Nat) (s : State) : Host.Outcome State Fault Refusal := receive l s legacyHsReqBytes

/-- MODERN_HS_REQ (R94). -/
def execModernHsReq (l : Nat) (s : State) : Host.Outcome State Fault Refusal := receive l s modernHsReqBytes

/-- LEGACY_FRAME (R99). -/
def execLegacyFrame (l : Nat) (tag : BitVec 7) (payload : List Byte) (s : State) :
    Host.Outcome State Fault Refusal :=
  receive l s (frameBytes s.cfg .legacy tag payload)

/-- MODERN_FRAME (R100). -/
def execModernFrame (l : Nat) (tag : BitVec 7) (payload : List Byte) (s : State) :
    Host.Outcome State Fault Refusal :=
  receive l s (frameBytes s.cfg .modern tag payload)

/-- LEGACY_HS_RSP (R102). -/
def execLegacyHsRsp (l : Nat) (s : State) : Host.Outcome State Fault Refusal := emit l s legacyHsRspBytes

/-- LEGACY_PERIODIC_REQ (R103). -/
def execLegacyPeriodicReq (l : Nat) (s : State) : Host.Outcome State Fault Refusal :=
  emit l s legacyPeriodicReqBytes

/-- MODERN_HS_RSP (R104). -/
def execModernHsRsp (l : Nat) (s : State) : Host.Outcome State Fault Refusal := emit l s modernHsRspBytes

/-- MODERN_PERIODIC_REQ (R105): the empty sequence. -/
def execModernPeriodicReq (l : Nat) (s : State) : Host.Outcome State Fault Refusal :=
  emit l s modernPeriodicReqBytes

end Sys2Proof.Machine
end

