-- ==== Sys2Proof/WellFormed.lean ====
section
/-! DEFINITION. Which instructions are well formed: operands in the ranges the spec gives them. -/

namespace Sys2Proof

/-- A link index of `1..N_LINKS` (R6, R302). -/
def linkOk (c : Config) (l : Nat) : Bool := decide (1 ≤ l) && decide (l ≤ c.nLinks)

/-- The 12 payload bytes of a data frame (R95). -/
def payloadOk (p : List Byte) : Bool := p.length == 12

/-- The length precondition of the checksum functions (R135). -/
def lengthOk (b : List Byte) (n : Nat) : Bool := decide (2 ≤ n) && decide (n ≤ b.length)

/-- A candidate set: one of the three lists of R175. -/
def candidatesOk (V : List Variant) : Bool :=
  V == [.legacy, .modern] || V == [.legacy] || V == [.modern]

/-- Operands in range, row by row. -/
def Instr.wellFormed (c : Config) : Instr → Bool
  | .legacyHsReq l => linkOk c l
  | .modernHsReq l => linkOk c l
  | .legacyFrame l _ p => linkOk c l && payloadOk p
  | .modernFrame l _ p => linkOk c l && payloadOk p
  | .legacyHsRsp l => linkOk c l
  | .legacyPeriodicReq l => linkOk c l
  | .modernHsRsp l => linkOk c l
  | .modernPeriodicReq l => linkOk c l
  | .crcLegacy b n => lengthOk b n
  | .crcModern b n => lengthOk b n
  | .ckField _ b n => lengthOk b n
  | .ckValid _ b n => lengthOk b n
  | .hsMatch _ _ => true
  | .frameMatch _ _ => true
  | .hsPending _ _ => true
  | .framePending _ _ => true
  | .classify b V => !b.isEmpty && candidatesOk V
  | .resync b V => !b.isEmpty && candidatesOk V
  | .select l _ => linkOk c l
  | .enter l _ => linkOk c l
  | .demote l => linkOk c l
  | .t1ErrorToDisconnected l => linkOk c l
  | .t2PeriodicToParse l => linkOk c l
  | .t3DisconnectedToError l => linkOk c l
  | .t4DisconnectedFrame l => linkOk c l
  | .t5DisconnectedHandshake l => linkOk c l
  | .t6DisconnectedResync l => linkOk c l
  | .t7PairingFrame l => linkOk c l
  | .t8PairingNomatch l => linkOk c l
  | .t9PairingTimeout l => linkOk c l
  | .t10LinkLost l => linkOk c l
  | .t11StreamTime l => linkOk c l
  | .t12StreamingDemote l => linkOk c l
  | .t13StreamCount l => linkOk c l
  | .pairingHsRepeat l => linkOk c l
  | .frameAccept l => linkOk c l
  | .pendingStop l => linkOk c l
  | .reset => true
  | .ingest l _ => linkOk c l
  | .process => true
  | .processLink l => linkOk c l
  | .txPop l => linkOk c l
  | .readStatus l => linkOk c l

end Sys2Proof
end

