-- ==== Sys2Proof/Decode.lean ====
section
/-! DEFINITION. The decoder, total on any byte sequence and rejecting by name, and after it the encoder, both from the
encoding tables of 30_encoding.md. A word is an operation's word (R107: code in bits 2:0 of its first byte, the other
bits 0; for INGEST the data bytes follow; log 2) or a wire message (R93 to R105). The operations the opcode table calls
internal have no word (R112; log 3). -/

namespace Sys2Proof

open Sys2Proof.Machine

/-! ## The wire patterns (R112: match and mask, first byte at the left) -/

/-- A match and a mask of one length. -/
structure Pattern where
  bits : List Byte
  mask : List Byte
deriving DecidableEq, Repr

/-- A word fits: it has the pattern's length, and under the mask it equals the match. -/
def fits (p : Pattern) (w : List Byte) : Bool :=
  w.length == p.bits.length && List.zipWith (· &&& ·) w p.mask == p.bits

/-- A literal: every bit compared (R92). -/
def literal (m : List Byte) : Pattern := { bits := m, mask := List.replicate m.length 0xFF }

/-- The frame patterns: byte 0 under mask FF, byte 1 under mask 80 (R99, R100). -/
def framePattern (tag : Byte) : Pattern :=
  { bits := startByte :: tag :: List.replicate 14 0, mask := 0xFF :: 0x80 :: List.replicate 14 0 }

/-- R99's pattern. -/
def legacyFramePattern : Pattern := framePattern 0x00

/-- R100's pattern. -/
def modernFramePattern : Pattern := framePattern 0x80

/-- The wire rows of the opcode table, in the table's order. -/
def wirePatterns : List Pattern :=
  [literal legacyHsReqBytes, literal modernHsReqBytes, legacyFramePattern, modernFramePattern,
    literal legacyHsRspBytes, literal legacyPeriodicReqBytes, literal modernHsRspBytes,
    literal modernPeriodicReqBytes]

/-! ## The decoder -/

/-- An operand-free operation: nothing follows its code. -/
def bare (code : Nat) (rest : List Byte) (i : Instr) : Except Refusal Instr :=
  if rest = [] then .ok i else .error (.badOperand code)

/-- An operation's word by its code `op[2:0]` (R107); 5 to 7 are no operations (U5). -/
def decodeOp (l code : Nat) (rest : List Byte) : Except Refusal Instr :=
  match code with
  | 0 => bare 0 rest .reset
  | 1 => .ok (.ingest l rest)
  | 2 => bare 2 rest .process
  | 3 => bare 3 rest (.txPop l)
  | 4 => bare 4 rest (.readStatus l)
  | n => .error (.reservedOp n)

/-- Bits 6:0 of a frame's tag byte (R95). -/
def tagOf (w : List Byte) : BitVec 7 := (byteAt w 1).extractLsb' 0 7

/-- Bytes 2 to 13 of a frame (R95). -/
def payloadOf (w : List Byte) : List Byte := (w.drop 2).take 12

/-- A frame-shaped word of variant `v`: the side condition is part of the encoding (R99, R100). -/
def decodeFrame (c : Config) (v : Variant) (w : List Byte) (i : Instr) : Except Refusal Instr :=
  if ckValid c v w frameLen then .ok i else .error .noChecksum

/-- A wire message (R93 to R105). -/
def decodeMessage (c : Config) (l : Nat) (w : List Byte) : Except Refusal Instr :=
  if fits (literal legacyHsReqBytes) w then .ok (.legacyHsReq l)
  else if fits (literal modernHsReqBytes) w then .ok (.modernHsReq l)
  else if fits legacyFramePattern w then
    decodeFrame c .legacy w (.legacyFrame l (tagOf w) (payloadOf w))
  else if fits modernFramePattern w then
    decodeFrame c .modern w (.modernFrame l (tagOf w) (payloadOf w))
  else if fits (literal legacyHsRspBytes) w then .ok (.legacyHsRsp l)
  else if fits (literal legacyPeriodicReqBytes) w then .ok (.legacyPeriodicReq l)
  else if fits (literal modernHsRspBytes) w then .ok (.modernHsRsp l)
  else if fits (literal modernPeriodicReqBytes) w then .ok (.modernPeriodicReq l)
  else .error (.noMessage (byteAt w 0))

/-- The instruction of a word, with the link operand `l` given beside it. -/
def decode (c : Config) (l : Nat) (w : List Byte) : Except Refusal Instr :=
  match w with
  | [] => decodeMessage c l []
  | x :: rest => if x.toNat < 8 then decodeOp l x.toNat rest else decodeMessage c l (x :: rest)

/-! ## The encoder -/

/-- The word of an instruction; none where the opcode table gives no encoding ("internal", R112). -/
def encode (c : Config) : Instr → Option (List Byte)
  | .legacyHsReq _ => .some legacyHsReqBytes
  | .modernHsReq _ => .some modernHsReqBytes
  | .legacyFrame _ tag p => .some (frameBytes c .legacy tag p)
  | .modernFrame _ tag p => .some (frameBytes c .modern tag p)
  | .legacyHsRsp _ => .some legacyHsRspBytes
  | .legacyPeriodicReq _ => .some legacyPeriodicReqBytes
  | .modernHsRsp _ => .some modernHsRspBytes
  | .modernPeriodicReq _ => .some modernPeriodicReqBytes
  | .reset => .some [0]
  | .ingest _ bytes => .some (1 :: bytes)
  | .process => .some [2]
  | .txPop _ => .some [3]
  | .readStatus _ => .some [4]
  | .crcLegacy _ _ => .none
  | .crcModern _ _ => .none
  | .ckField _ _ _ => .none
  | .ckValid _ _ _ => .none
  | .hsMatch _ _ => .none
  | .frameMatch _ _ => .none
  | .hsPending _ _ => .none
  | .framePending _ _ => .none
  | .classify _ _ => .none
  | .resync _ _ => .none
  | .select _ _ => .none
  | .enter _ _ => .none
  | .demote _ => .none
  | .t1ErrorToDisconnected _ => .none
  | .t2PeriodicToParse _ => .none
  | .t3DisconnectedToError _ => .none
  | .t4DisconnectedFrame _ => .none
  | .t5DisconnectedHandshake _ => .none
  | .t6DisconnectedResync _ => .none
  | .t7PairingFrame _ => .none
  | .t8PairingNomatch _ => .none
  | .t9PairingTimeout _ => .none
  | .t10LinkLost _ => .none
  | .t11StreamTime _ => .none
  | .t12StreamingDemote _ => .none
  | .t13StreamCount _ => .none
  | .pairingHsRepeat _ => .none
  | .frameAccept _ => .none
  | .pendingStop _ => .none
  | .processLink _ => .none

/-- The link operand that goes beside an instruction's word (R107); RESET and PROCESS take none, and 1 stands
there. -/
def encodeLink : Instr → Nat
  | .legacyHsReq l => l
  | .modernHsReq l => l
  | .legacyFrame l _ _ => l
  | .modernFrame l _ _ => l
  | .legacyHsRsp l => l
  | .legacyPeriodicReq l => l
  | .modernHsRsp l => l
  | .modernPeriodicReq l => l
  | .ingest l _ => l
  | .txPop l => l
  | .readStatus l => l
  | _ => 1

/-! ## Words of the opcode table -/

/-- The `k` bytes of a number, the least significant first: byte `i` of a table word is bits `8i+7..8i`. -/
def bytesOf : Nat → Nat → List Byte
  | 0, _ => []
  | k + 1, w => BitVec.ofNat 8 w :: bytesOf k (w / 256)

/-- The bytes of a table word of `nbits` bits, as the block is given them: first byte first. No word of the table is
followed by operand words (the data of INGEST may be empty). -/
def tableBytes (nbits w : Nat) : List Byte := bytesOf ((nbits + 7) / 8) w

/-- The link operand beside a table word: the first link (log 2). -/
def tableLink : Nat := 1

/-- The instruction the decoder reads from a table word. -/
def decodeTableWord (nbits w : Nat) : Option Instr :=
  match decode Config.default tableLink (tableBytes nbits w) with
  | .ok i => .some i
  | .error _ => .none

end Sys2Proof
end

