-- ==== Sys2Proof/Machine/CrcEngine.lean ====
section
/-! DEFINITION. The CRC Engine's instructions (40_crc_engine.md): each returns its function's value and writes nothing
else. -/

namespace Sys2Proof.Machine

open Sys2Proof

/-- CRC_LEGACY (R131). -/
def execCrcLegacy (b : List Byte) (n : Nat) (s : State) : Host.Outcome State Fault Refusal :=
  onMessage b n s (.word (crcLegacy b n))

/-- CRC_MODERN (R132). -/
def execCrcModern (b : List Byte) (n : Nat) (s : State) : Host.Outcome State Fault Refusal :=
  onMessage b n s (.word (crcModern b n))

/-- CK_FIELD (R133). -/
def execCkField (v : Variant) (b : List Byte) (n : Nat) (s : State) : Host.Outcome State Fault Refusal :=
  onMessage b n s (.word (ckField s.cfg v b n))

/-- CK_VALID (R134). -/
def execCkValid (v : Variant) (b : List Byte) (n : Nat) (s : State) : Host.Outcome State Fault Refusal :=
  onMessage b n s (.flag (ckValid s.cfg v b n))

end Sys2Proof.Machine
end

