-- ==== Sys2Proof/Machine/Validator.lean ====
section
/-! DEFINITION. The Frame Validator's instructions (41_frame_validator.md): pure functions of a byte sequence and a
variant or candidate set. -/

namespace Sys2Proof.Machine

open Sys2Proof

/-- HS_MATCH (R151). -/
def execHsMatch (v : Variant) (b : List Byte) (s : State) : Host.Outcome State Fault Refusal :=
  .next (s.answer (.flag (hsMatch v b)))

/-- FRAME_MATCH (R152). -/
def execFrameMatch (v : Variant) (b : List Byte) (s : State) : Host.Outcome State Fault Refusal :=
  .next (s.answer (.flag (frameMatch s.cfg v b)))

/-- HS_PENDING (R153). -/
def execHsPending (v : Variant) (b : List Byte) (s : State) : Host.Outcome State Fault Refusal :=
  .next (s.answer (.flag (hsPending v b)))

/-- FRAME_PENDING (R154). -/
def execFramePending (v : Variant) (b : List Byte) (s : State) : Host.Outcome State Fault Refusal :=
  .next (s.answer (.flag (framePending s.cfg v b)))

/-- CLASSIFY (R155); for the empty sequence, outside the rule's operands, a free value (log 15). -/
def execClassify (b : List Byte) (V : List Variant) (s : State) : Host.Outcome State Fault Refusal :=
  .next (s.answer (.cls (if b = [] then Config.classifyOutside V else classify s.cfg b V)))

/-- RESYNC (R157); for an operand that is empty or does not classify as NoMatch, outside the rule's operands, a free
value (log 15). -/
def execResync (b : List Byte) (V : List Variant) (s : State) : Host.Outcome State Fault Refusal :=
  .next (s.answer (.count
    (if b = [] ∨ classify s.cfg b V ≠ .noMatch then Config.resyncOutside b V else resync s.cfg b V)))

end Sys2Proof.Machine
end

