-- ==== Sys2Proof/Machine/Dispatch.lean ====
section
/-! DEFINITION. The dispatcher: one arm per constructor of Instr. -/

namespace Sys2Proof.Machine

open Sys2Proof

def exec (i : Instr) (s : State) : Host.Outcome State Fault Refusal :=
  match i with
  | .legacyHsReq l => Sys2Proof.Machine.execLegacyHsReq l s
  | .modernHsReq l => Sys2Proof.Machine.execModernHsReq l s
  | .legacyFrame l tag payload => Sys2Proof.Machine.execLegacyFrame l tag payload s
  | .modernFrame l tag payload => Sys2Proof.Machine.execModernFrame l tag payload s
  | .legacyHsRsp l => Sys2Proof.Machine.execLegacyHsRsp l s
  | .legacyPeriodicReq l => Sys2Proof.Machine.execLegacyPeriodicReq l s
  | .modernHsRsp l => Sys2Proof.Machine.execModernHsRsp l s
  | .modernPeriodicReq l => Sys2Proof.Machine.execModernPeriodicReq l s
  | .crcLegacy b n => Sys2Proof.Machine.execCrcLegacy b n s
  | .crcModern b n => Sys2Proof.Machine.execCrcModern b n s
  | .ckField v b n => Sys2Proof.Machine.execCkField v b n s
  | .ckValid v b n => Sys2Proof.Machine.execCkValid v b n s
  | .hsMatch v b => Sys2Proof.Machine.execHsMatch v b s
  | .frameMatch v b => Sys2Proof.Machine.execFrameMatch v b s
  | .hsPending v b => Sys2Proof.Machine.execHsPending v b s
  | .framePending v b => Sys2Proof.Machine.execFramePending v b s
  | .classify b V => Sys2Proof.Machine.execClassify b V s
  | .resync b V => Sys2Proof.Machine.execResync b V s
  | .select l v => Sys2Proof.Machine.execSelect l v s
  | .enter l S => Sys2Proof.Machine.execEnter l S s
  | .demote l => Sys2Proof.Machine.execDemote l s
  | .t1ErrorToDisconnected l => Sys2Proof.Machine.execT1 l s
  | .t2PeriodicToParse l => Sys2Proof.Machine.execT2 l s
  | .t3DisconnectedToError l => Sys2Proof.Machine.execT3 l s
  | .t4DisconnectedFrame l => Sys2Proof.Machine.execT4 l s
  | .t5DisconnectedHandshake l => Sys2Proof.Machine.execT5 l s
  | .t6DisconnectedResync l => Sys2Proof.Machine.execT6 l s
  | .t7PairingFrame l => Sys2Proof.Machine.execT7 l s
  | .t8PairingNomatch l => Sys2Proof.Machine.execT8 l s
  | .t9PairingTimeout l => Sys2Proof.Machine.execT9 l s
  | .t10LinkLost l => Sys2Proof.Machine.execT10 l s
  | .t11StreamTime l => Sys2Proof.Machine.execT11 l s
  | .t12StreamingDemote l => Sys2Proof.Machine.execT12 l s
  | .t13StreamCount l => Sys2Proof.Machine.execT13 l s
  | .pairingHsRepeat l => Sys2Proof.Machine.execPairingHsRepeat l s
  | .frameAccept l => Sys2Proof.Machine.execFrameAccept l s
  | .pendingStop l => Sys2Proof.Machine.execPendingStop l s
  | .reset => Sys2Proof.Machine.execReset s
  | .ingest l bytes => Sys2Proof.Machine.execIngest l bytes s
  | .process => Sys2Proof.Machine.execProcess s
  | .processLink l => Sys2Proof.Machine.execProcessLink l s
  | .txPop l => Sys2Proof.Machine.execTxPop l s
  | .readStatus l => Sys2Proof.Machine.execReadStatus l s

end Sys2Proof.Machine
end

