-- ==== Sys2Proof/Machine/Step.lean ====
section
/-! DEFINITION. One step of the block: take the oldest pending request, sample its `now`, decode its word, run the
instruction (R18, R33, R107, R110; log 1). With nothing pending the block is idle (R301, R313). -/

namespace Sys2Proof.Machine

open Sys2Proof

/-- The state a request is run in: its `now` sampled (R33), the request taken. -/
def State.accepting (s : State) (r : Request) (rest : List Request) : State :=
  { s with now := sample s.cfg r.now, pending := rest }

def step (s : State) : Host.Outcome State Fault Refusal :=
  match s.pending with
  | [] => .next s
  | r :: rest =>
    match decode s.cfg r.link r.word with
    | .ok i => exec i (s.accepting r rest)
    | .error e => .refused e

/-- The next request is the table word's, at the `now` the block last sampled, with the first link as operand
(log 1, log 2). -/
def State.withFetchWord (s : State) (nbits w : Nat) : State :=
  { s with pending := { now := s.now, link := tableLink, word := tableBytes nbits w } :: s.pending }

end Sys2Proof.Machine
end

