-- ==== Sys2Proof/Safety.lean ====
section
/-! DEFINITION. What counts as a well-formed state and a well-paced environment, and the terms the statements are
written in. -/

namespace Sys2Proof.Machine

open Sys2Proof

/-! ## Invariants (R39) -/

/-- R39 (i) and (ii) for one link: the buffer within its capacity (R23), and a selection exactly outside
Disconnected and Error (R29); and the widths R6 gives: both timestamps of `TIME_W` bits (R24, R26), the transmit queue
within `TXQ_CAP` (R32). R39 (iii) holds by the type of `cs`. -/
abbrev LinkInv (c : Config) (L : Link) : Prop :=
  L.buf.wf c.bufCap ∧ (L.sel = .none ↔ L.cs = .disconnected ∨ L.cs = .error) ∧
    L.tLast < 2 ^ c.timeW ∧ L.tEntry < 2 ^ c.timeW ∧ queueOk c L.txq = true

/-- R39 (i) to (iii) for the block: `N_LINKS` links (R20), each as `LinkInv` says, and `now` of `TIME_W` bits (R33). -/
def State.Inv (s : State) : Prop :=
  s.links.length = s.cfg.nLinks ∧ s.now < 2 ^ s.cfg.timeW ∧ ∀ L ∈ s.links, LinkInv s.cfg L

/-- R39 (iv): the buffer is empty or classifies as Pending. -/
def Link.quiet (c : Config) (L : Link) : Prop := L.buf = [] ∨ classOf c L = .pending

/-- The literals the block emits (R101 to R105). -/
def emittedLiterals : List (List Byte) :=
  [legacyHsRspBytes, legacyPeriodicReqBytes, modernHsRspBytes, modernPeriodicReqBytes]

/-- R39 (v): a queue has grown by whole literals. -/
def GrownByLiterals (before after : List Byte) : Prop :=
  ∃ ms : List (List Byte), (∀ m ∈ ms, m ∈ emittedLiterals) ∧ after = before ++ ms.flatten

/-! ## The environment's duties (R320, R321) -/

/-- Requests whose `now` never runs back, counted from `t` (R321). -/
def monotone (c : Config) : Nat → List Request → Prop
  | _, [] => True
  | t, r :: rs => elapsed c r.now t < 2 ^ (c.timeW - 1) ∧ monotone c r.now rs

/-- PROCESS requests at most `T_PROCESS_MAX` apart, counted from `t` (R320). -/
def paced (c : Config) : Nat → List Request → Prop
  | _, [] => True
  | t, r :: rs => elapsed c r.now t ≤ c.tProcessMax ∧ paced c (if r.word = [2] then r.now else t) rs

/-! ## Terms of the statements -/

/-- The link operand of an instruction, where it has one (R107). -/
def linkArg : Instr → Option Nat
  | .legacyHsReq l => .some l
  | .modernHsReq l => .some l
  | .legacyFrame l _ _ => .some l
  | .modernFrame l _ _ => .some l
  | .legacyHsRsp l => .some l
  | .legacyPeriodicReq l => .some l
  | .modernHsRsp l => .some l
  | .modernPeriodicReq l => .some l
  | .select l _ => .some l
  | .enter l _ => .some l
  | .demote l => .some l
  | .t1ErrorToDisconnected l => .some l
  | .t2PeriodicToParse l => .some l
  | .t3DisconnectedToError l => .some l
  | .t4DisconnectedFrame l => .some l
  | .t5DisconnectedHandshake l => .some l
  | .t6DisconnectedResync l => .some l
  | .t7PairingFrame l => .some l
  | .t8PairingNomatch l => .some l
  | .t9PairingTimeout l => .some l
  | .t10LinkLost l => .some l
  | .t11StreamTime l => .some l
  | .t12StreamingDemote l => .some l
  | .t13StreamCount l => .some l
  | .pairingHsRepeat l => .some l
  | .frameAccept l => .some l
  | .pendingStop l => .some l
  | .ingest l _ => .some l
  | .processLink l => .some l
  | .txPop l => .some l
  | .readStatus l => .some l
  | .crcLegacy _ _ => .none
  | .crcModern _ _ => .none
  | .ckField _ _ _ => .none
  | .ckValid _ _ _ => .none
  | .hsMatch _ _ => .none
  | .frameMatch _ _ => .none
  | .hsPending _ _ => .none
  | .framePending _ _ => .none
  | .classify _ _ => .none
  | .resync _ _ => .none
  | .reset => .none
  | .process => .none

/-- The byte sequence with bit `k` of the byte at offset `i` flipped. -/
def flipBit (b : List Byte) (i k : Nat) : List Byte := b.set i (byteAt b i ^^^ BitVec.twoPow 8 k)

/-- The buffer INGEST appends to: the one held, or the empty one where the idle reset of R253 applies. -/
def freshBuffer (c : Config) (now : Nat) (L : Link) : List Byte :=
  if L.buf ≠ [] ∧ c.tIdle < elapsed c now L.tLast then [] else L.buf

/-- The bytes of an INGEST that fit: the head of the operand, up to the room left (R252). -/
def fitting (c : Config) (now : Nat) (L : Link) (bytes : List Byte) : List Byte :=
  bytes.take (c.bufCap - (freshBuffer c now L).length)

/-- The state after INGEST as R252 and R253 describe it, for a link `l` whose registers are `L`: the fitting bytes at
the tail, `t_last` stamped only if a byte was stored, one BufferOverflow if a byte was dropped. -/
def State.ingested (s : State) (l : Nat) (L : Link) (bytes : List Byte) : State :=
  let kept := fitting s.cfg s.now L bytes
  let t := s.setLink l { L with
    buf := freshBuffer s.cfg s.now L ++ kept
    tLast := if kept = [] then L.tLast else s.now }
  if kept.length < bytes.length then
    { t with errOut := t.errOut ++ [{ link := l, kind := .bufferOverflow, raw := 0 }] }
  else t

/-- The counter after `sat_inc_8` (R16). -/
def satInc8 (c : BitVec 8) : BitVec 8 := if c = 255 then 255 else c + 1

/-- The counter after `sat_inc_16` (R16). -/
def satInc16 (c : Word16) : Word16 := if c = 65535 then 65535 else c + 1

/-- The registers of a link after `demote()` at `now`, as R188 gives them. -/
def Link.demoted (now : Nat) (L : Link) : Link :=
  { L with dcc := satInc8 L.dcc, cs := .disconnected, tEntry := now, sel := .none }

/-- The registers of a link after the frame-accept action in StreamingParse or StreamingPeriodic, as R203 gives them,
before T13 is evaluated. -/
def Link.accepted (L : Link) : Link :=
  { L with dcc := 0, buf := L.buf.drop 16, pkt := satInc16 L.pkt }

/-- The registers after T13 was evaluated for the selected variant `v` (R204): StreamingPeriodic with the request
queued where the threshold is reached, else no change. -/
def Link.counted (c : Config) (now : Nat) (v : Variant) (L : Link) : Link :=
  if L.cs = .streamingParse ∧ (descriptor c v).pktThresh ≠ 0 ∧ (descriptor c v).pktThresh ≤ L.pkt.toNat then
    { L with cs := .streamingPeriodic, tEntry := now, txq := enqueue c L.txq (descriptor c v).perreq }
  else L

/-- The state after a frame of variant `v` at the front of link `l`'s buffer was delivered and the registers became
`L'` (R30, R203). -/
def State.delivered (s : State) (l : Nat) (v : Variant) (L L' : Link) : State :=
  { s.setLink l L' with frameOut := s.frameOut ++ [{ link := l, variant := v, frame := L.buf.take 16 }] }

/-- The table's Phase A rule for a link, in the order of R212: at most one applies. -/
def phaseARule (c : Config) (now : Nat) (l : Nat) (L : Link) : Instr :=
  match L.cs with
  | .error => .t1ErrorToDisconnected l
  | .streamingPeriodic => .t2PeriodicToParse l
  | .disconnected => .t3DisconnectedToError l
  | .pairing => .t9PairingTimeout l
  | .streamingParse => if c.tUnactive < elapsed c now L.tLast then .t10LinkLost l else .t11StreamTime l

/-- The table's Phase B rule for a pair of state and classification, the entries of R213. -/
def phaseBRule (l : Nat) (cs : ConnState) (k : Class) : Instr :=
  match k, cs with
  | .pending, _ => .pendingStop l
  | .frame _, .disconnected => .t4DisconnectedFrame l
  | .frame _, .pairing => .t7PairingFrame l
  | .frame _, _ => .frameAccept l
  | .handshake _, .disconnected => .t5DisconnectedHandshake l
  | .handshake _, .pairing => .pairingHsRepeat l
  | .handshake _, _ => .t12StreamingDemote l
  | .noMatch, .disconnected => .t6DisconnectedResync l
  | .noMatch, .pairing => .t8PairingNomatch l
  | .noMatch, _ => .t12StreamingDemote l

/-- A run of Phase B on link `l`, written with the table's own instructions (R189, R213): from a state, with the flag
`discarded`, to the state and flag at the loop's end. It ends at an empty buffer or at Pending (R205); otherwise the
one rule of the pair of state and classification is run and the loop goes on. -/
inductive PhaseBRun (l : Nat) : State → Bool → State → Bool → Prop where
  | stop {s : State} {d : Bool} {L : Link} :
      s.link? l = .some L → L.buf = [] ∨ classOf s.cfg L = .pending → PhaseBRun l s d s d
  | step {s s' t : State} {d d' : Bool} {L : Link} :
      s.link? l = .some L → L.buf ≠ [] → classOf s.cfg L ≠ .pending →
      exec (phaseBRule l L.cs (classOf s.cfg L)) s = .next s' →
      PhaseBRun l s' (d || (decide (L.cs = .disconnected) && decide (classOf s.cfg L = .noMatch))) t d' →
      PhaseBRun l s d t d'

/-- The registers after Phase C (R207, R258): `L1` are those when Phase B began, `L2` those at its end, `d` says that
T6 discarded. -/
def phaseCRegs (c : Config) (now : Nat) (L1 L2 : Link) (d : Bool) : Link :=
  let L3 : Link :=
    if L1.cs = .disconnected ∧ L2.cs = .disconnected ∧ d then { L2 with dcc := satInc8 L2.dcc } else L2
  if L3.buf ≠ [] ∧ c.tIdle < elapsed c now L3.tLast then { L3 with buf := [] } else L3

end Sys2Proof.Machine
end

