-- ==== Sys2Proof/Certificates/Slice0/Obligations.lean ====
section
/-! DEFINITION. The statements for the provers. -/

open Sys2Proof Sys2Proof.Machine

/-! ## Words -/

/-- Every word the encoder writes for a well-formed instruction decodes to that instruction (30_encoding.md). -/
def Obligations.DecodeEncodeAgree : Prop :=
  ∀ (c : Config) (i : Instr) (w : List Byte),
    i.wellFormed c → encode c i = some w → decode c (encodeLink i) w = .ok i

/-- Every word the decoder accepts is the encoder's word of the instruction it gives, so no two words decode alike
but by their link operand, and what is decoded for a link the block has is well formed. -/
def Obligations.DecodedWordsAreEncodings : Prop :=
  ∀ (c : Config) (l : Nat) (w : List Byte) (i : Instr),
    decode c l w = .ok i →
      encode c i = some w ∧ (linkArg i = some l ∨ linkArg i = none) ∧ (linkOk c l → i.wellFormed c)

/-- Words of the opcode table and of 95_test_vectors.md decode to their instructions. -/
def Obligations.KnownWordsDecode : Prop :=
  decode Config.default 1 [0x41, 0x54, 0x2B, 0x50, 0x41, 0x53, 0x53, 0x3D, 0x32, 0x39, 0x36, 0x38, 0x38, 0x37, 0x38,
      0x31] = .ok (.legacyHsReq 1) ∧
  decode Config.default 2 [0x41, 0x54, 0x2B, 0x56, 0x45, 0x52, 0x53, 0x49, 0x4F, 0x4E] = .ok (.modernHsReq 2) ∧
  decode Config.default 1 [0xAA, 0x01, 0xB0, 0x04, 0x28, 0, 0, 0, 0, 0, 0, 0, 0, 0, 0x01, 0x87] =
      .ok (.legacyFrame 1 1 [0xB0, 0x04, 0x28, 0, 0, 0, 0, 0, 0, 0, 0, 0]) ∧
  decode Config.default 1 [0xAA, 0x80, 0x20, 0x03, 0x00, 0x03, 0, 0, 0, 0, 0, 0, 0, 0, 0x58, 0x63] =
      .ok (.modernFrame 1 0 [0x20, 0x03, 0x00, 0x03, 0, 0, 0, 0, 0, 0, 0, 0]) ∧
  decode Config.default 1 [0xAA, 0x13, 0xEC, 0x07, 0x09, 0x6F, 0x28, 0xD7] = .ok (.legacyPeriodicReq 1)

/-- R107: the five operation codes, and the three that are no operations. The form of the word around the code is the
model's (log 2). -/
def Obligations.OperationCodesDecode : Prop :=
  ∀ (c : Config) (l : Nat),
    decode c l [0] = .ok .reset ∧
    (∀ bytes : List Byte, decode c l (1 :: bytes) = .ok (.ingest l bytes)) ∧
    decode c l [2] = .ok .process ∧
    decode c l [3] = .ok (.txPop l) ∧
    decode c l [4] = .ok (.readStatus l) ∧
    ∀ (x : Byte) (rest : List Byte), 5 ≤ x.toNat → x.toNat ≤ 7 →
      decode c l (x :: rest) = .error (.reservedOp x.toNat)

/-! ## The step -/

/-- A step runs the instruction the oldest request decodes to, at the request's `now` modulo `2^TIME_W` (R33), with the
request taken; with nothing pending the block is idle; a word the decoder refuses stops it with the decoder's reason. -/
def Obligations.StepRunsDecodedRequest : Prop :=
  ∀ s : State,
    (s.pending = [] → step s = .next s) ∧
    (∀ (r : Request) (rest : List Request) (i : Instr),
      s.pending = r :: rest → decode s.cfg r.link r.word = .ok i →
        step s = exec i { s with now := r.now % 2 ^ s.cfg.timeW, pending := rest }) ∧
    ∀ (r : Request) (rest : List Request) (e : Refusal),
      s.pending = r :: rest → decode s.cfg r.link r.word = .error e → step s = .refused e

/-- R303: every operation the environment can issue, on operands in range, completes in every state that meets the
invariants, and the state it leaves meets them (R39 (i) to (iii), and the widths of R6). -/
def Obligations.IssuedOperationsAreTotal : Prop :=
  ∀ (s : State) (i : Instr) (w : List Byte),
    s.Inv → i.wellFormed s.cfg → encode s.cfg i = some w → ∃ t, exec i s = .next t ∧ t.Inv

/-! ## Reset and invariants -/

/-- R251: RESET puts every link into the state of R38 and empties the streams. That it leaves the parameters, `now` and
`pending` as they were is the model's choice (log 7, log 10). -/
def Obligations.ResetPutsEveryLinkInR38 : Prop :=
  ∀ s : State, ∃ t, exec .reset s = .next t ∧
    t.links = List.replicate s.cfg.nLinks
      { buf := [], tLast := 0, cs := .disconnected, tEntry := 0, dcc := 0, pkt := 0, sel := none, txq := [] } ∧
    t.frameOut = [] ∧ t.errOut = [] ∧ t.cfg = s.cfg ∧ t.now = s.now ∧ t.pending = s.pending

/-- R38, and for the parameters R6, R7 and R69: the machine right after reset. That the parameters R7 leaves open are 0,
is the model's choice (log 7). `now`, `result` and `pending` are the model's choice (log 10) and are not claimed. -/
def Obligations.StateAfterResetIsR38 : Prop :=
  State.reset.links.length = 2 ∧
  (∀ L ∈ State.reset.links, L.buf = [] ∧ L.tLast = 0 ∧ L.cs = .disconnected ∧ L.tEntry = 0 ∧ L.dcc = 0 ∧ L.pkt = 0 ∧
    L.sel = none ∧ L.txq = []) ∧
  State.reset.frameOut = [] ∧ State.reset.errOut = [] ∧
  State.reset.cfg =
    { nLinks := 2, bufCap := 128, timeW := 32, txqCap := none, disconnectLimit := 30, tPair := 3000, tStream := 550,
      tUnactive := 500, tIdle := 20, tProcessMax := 30, pktThreshLegacy := 0, pktThreshModern := 0,
      legacyCkBigEndian := true }

/-- R311: a PROCESS on links that are as RESET left them applies no transition and changes nothing, at any time, for
any number of links and any limits. -/
def Obligations.FirstProcessAfterResetChangesNothing : Prop :=
  ∀ s : State, s.links = List.replicate s.cfg.nLinks Link.reset → exec .process s = .next s

/-- R39 (i) to (iii), and the widths R6 gives the times and the transmit queues: every step keeps the invariants, from
every state that meets them. -/
def Obligations.StepKeepsInvariant : Prop :=
  ∀ s t : State, s.Inv → step s = .next t → t.Inv

/-- The machine right after reset meets the invariants. -/
def Obligations.ResetMeetsInvariant : Prop := State.reset.Inv

/-! ## The tick -/

/-- R189, R213, R255: a tick of one link is a run of the table's own rules. Phase A runs the one rule of the state held;
if that entered Error the tick ends there; else Phase B runs the rule of each pair of state and classification until
the buffer is empty or Pending, and Phase C counts a failed recognition and applies the idle reset. -/
def Obligations.TickIsARunOfTableRules : Prop :=
  ∀ (s : State) (l : Nat) (L : Link), s.link? l = some L →
    ∃ t s1 L1, exec (.processLink l) s = .next t ∧
      exec (phaseARule s.cfg s.now l L) s = .next s1 ∧ s1.link? l = some L1 ∧
      if L1.cs = .error then t = s1
      else ∃ s2 d L2, PhaseBRun l s1 false s2 d ∧ s2.link? l = some L2 ∧
        t = s2.setLink l (phaseCRegs s.cfg s.now L1 L2 d)

/-- R264, R322: after a tick that did not take T3 the buffer is empty, or holds a Pending start of at most 15 bytes whose
newest byte is at most `T_IDLE` old; a tick that took T3 leaves the buffer as it was. -/
def Obligations.TickLeavesFreshPendingStart : Prop :=
  ∀ (s : State) (l : Nat) (L : Link), s.link? l = some L →
    ∃ t L', exec (.processLink l) s = .next t ∧ t.link? l = some L' ∧
      if L.cs = .disconnected ∧ s.cfg.disconnectLimit < L.dcc.toNat then L'.buf = L.buf ∧ L'.cs = .error
      else L'.cs ≠ .error ∧ (L'.buf = [] ∨
        (classOf s.cfg L' = .pending ∧ L'.buf.length ≤ 15 ∧ elapsed s.cfg s.now L'.tLast ≤ s.cfg.tIdle))

/-- R214: `2 * len + 1` iterations of Phase B are enough: more change nothing, from every state Phase B can begin in. -/
def Obligations.PhaseBBoundSuffices : Prop :=
  ∀ (c : Config) (now : Nat) (w : Work) (n : Nat),
    w.link.cs ≠ .error → 2 * w.link.buf.length + 1 ≤ n →
      phaseB c now n w = phaseB c now (2 * w.link.buf.length + 1) w

/-- R254: PROCESS ticks every link at the one sampled `now`, each from its own registers, and the events of the links
stand in the streams in ascending link order. -/
def Obligations.ProcessTicksEveryLink : Prop :=
  ∀ s : State, s.links.length = s.cfg.nLinks →
    ∃ t, exec .process s = .next t ∧
      t.links = s.links.map (fun L => (processLink s.cfg s.now (Work.start L)).link) ∧
      t.frameOut = s.frameOut ++ ((s.links.zipIdx 1).map fun p =>
        (processLink s.cfg s.now (Work.start p.1)).frames.map (frameEvent p.2)).flatten ∧
      t.errOut = s.errOut ++ ((s.links.zipIdx 1).map fun p =>
        (processLink s.cfg s.now (Work.start p.1)).errs.map (errEvent p.2)).flatten ∧
      t.cfg = s.cfg ∧ t.now = s.now ∧ t.result = s.result ∧ t.pending = s.pending

/-- R39 (v), R259: a PROCESS grows every transmit queue by whole emitted literals, the queues being unbounded (R32). -/
def Obligations.ProcessGrowsQueuesByLiterals : Prop :=
  ∀ s t : State, s.Inv → s.cfg.txqCap = none → exec .process s = .next t →
    ∀ (l : Nat) (L L' : Link), s.link? l = some L → t.link? l = some L' → GrownByLiterals L.txq L'.txq

/-- R292, R284, R281: what PROCESS and INGEST append to `err_out`: at most one event for each link, `raw` 0; from PROCESS
only LinkLost and ProtocolMismatch, from INGEST only BufferOverflow, so Framing and Checksum are never raised. -/
def Obligations.EventsPerOperation : Prop :=
  ∀ s t : State,
    (exec .process s = .next t → ∃ es, t.errOut = s.errOut ++ es ∧
      (∀ e ∈ es, (e.kind = .linkLost ∨ e.kind = .protocolMismatch) ∧ e.raw = 0 ∧ (s.link? e.link).isSome) ∧
      (es.map ErrEvent.link).Nodup) ∧
    ∀ (l : Nat) (bytes : List Byte), exec (.ingest l bytes) s = .next t →
      t.errOut = s.errOut ∨ t.errOut = s.errOut ++ [{ link := l, kind := .bufferOverflow, raw := 0 }]

/-- R163: whatever instruction runs, what it appends to `frame_out` is 16-byte frames that FRAME_MATCH accepts for the
variant they are delivered with. -/
def Obligations.DeliveredFramesMatch : Prop :=
  ∀ (i : Instr) (s t : State), i ≠ .reset → exec i s = .next t →
    ∃ fs, t.frameOut = s.frameOut ++ fs ∧
      ∀ e ∈ fs, e.frame.length = 16 ∧ frameMatch s.cfg e.variant e.frame

/-! ## Links -/

/-- R302, U4: every operation that names a link outside `1..N_LINKS` is refused as such, and only those indices are
outside. -/
def Obligations.LinkOutOfRangeRefused : Prop :=
  ∀ (s : State) (i : Instr) (l : Nat), linkArg i = some l → (l = 0 ∨ s.links.length < l) →
    exec i s = .refused (.badLink l)

/-- R20: an operation on one link leaves every other link's registers, every byte of every other buffer, the
parameters, the time and the requests as they were, and appends events of its own link only. -/
def Obligations.OtherLinksUntouched : Prop :=
  ∀ (i : Instr) (l : Nat) (s t : State), linkArg i = some l → exec i s = .next t →
    (∀ m, m ≠ l → t.link? m = s.link? m) ∧
    (∀ m a, m ≠ l → (t.link? m).map (fun L => L.buf.read a) = (s.link? m).map (fun L => L.buf.read a)) ∧
    t.cfg = s.cfg ∧ t.now = s.now ∧ t.pending = s.pending ∧
    (∃ fs, t.frameOut = s.frameOut ++ fs ∧ ∀ e ∈ fs, e.link = l) ∧
    ∃ es, t.errOut = s.errOut ++ es ∧ ∀ e ∈ es, e.link = l

/-! ## INGEST and the wire -/

/-- R252, R253, R64: INGEST applies the idle reset, stores the bytes that fit at the tail, stamps `t_last` if one was
stored, and raises one BufferOverflow if one was dropped; nothing else changes. -/
def Obligations.IngestStoresWhatFits : Prop :=
  ∀ (s : State) (l : Nat) (L : Link) (bytes : List Byte), s.link? l = some L →
    exec (.ingest l bytes) s = .next (s.ingested l L bytes)

/-- R93, R94: a handshake request arriving on a link is an INGEST of its literal (log 4). -/
def Obligations.HandshakeRequestsArrive : Prop :=
  ∀ (s : State) (l : Nat) (L : Link), s.link? l = some L →
    exec (.legacyHsReq l) s = .next (s.ingested l L [0x41, 0x54, 0x2B, 0x50, 0x41, 0x53, 0x53, 0x3D, 0x32, 0x39, 0x36,
      0x38, 0x38, 0x37, 0x38, 0x31]) ∧
    exec (.modernHsReq l) s = .next (s.ingested l L [0x41, 0x54, 0x2B, 0x56, 0x45, 0x52, 0x53, 0x49, 0x4F, 0x4E])

/-- R95, R99, R100: a data frame arriving on a link is an INGEST of 16 bytes with the pattern and the side condition of
its variant (log 4). -/
def Obligations.DataFramesArrive : Prop :=
  ∀ (s : State) (l : Nat) (L : Link) (tag : BitVec 7) (p : List Byte),
    s.link? l = some L → p.length = 12 → s.cfg.legacyCkBigEndian = true →
    (∃ x y : Byte,
      let f := (0xAA : Byte) :: tag.setWidth 8 :: (p ++ [x, y])
      f.length = 16 ∧ crcLegacy f 16 = (x.setWidth 16 <<< 8) ||| y.setWidth 16 ∧
        exec (.legacyFrame l tag p) s = .next (s.ingested l L f)) ∧
    ∃ x y : Byte,
      let f := (0xAA : Byte) :: (0x80 ||| tag.setWidth 8) :: (p ++ [x, y])
      f.length = 16 ∧ crcModern f 16 = x.setWidth 16 ||| (y.setWidth 16 <<< 8) ∧
        exec (.modernFrame l tag p) s = .next (s.ingested l L f)

/-- R102 to R105: emitting a literal enqueues it on the link's transmit queue and does nothing else (log 5); enqueued is
appended whole where the queue is unbounded or has room, and else the content is a free value within the capacity
(log 19). -/
def Obligations.LiteralsAreEmitted : Prop :=
  (∀ (c : Config) (q m : List Byte),
    ((c.txqCap = none ∨ ∃ n, c.txqCap = some n ∧ q.length + m.length ≤ n) → enqueue c q m = q ++ m) ∧
    ∀ n, c.txqCap = some n → q.length ≤ n → (enqueue c q m).length ≤ n) ∧
  ∀ (s : State) (l : Nat) (L : Link), s.link? l = some L →
    exec (.legacyHsRsp l) s = .next (s.setLink l { L with
      txq := enqueue s.cfg L.txq
        [0x2B, 0x50, 0x41, 0x53, 0x53, 0x3D, 0x4F, 0x4E, 0x4E, 0x44, 0x4F, 0x4E, 0x4B, 0x45] }) ∧
    exec (.legacyPeriodicReq l) s = .next (s.setLink l { L with
      txq := enqueue s.cfg L.txq [0xAA, 0x13, 0xEC, 0x07, 0x09, 0x6F, 0x28, 0xD7] }) ∧
    exec (.modernHsRsp l) s = .next (s.setLink l { L with
      txq := enqueue s.cfg L.txq [0xAA, 0x13, 0xEC, 0x07, 0x01, 0xF1, 0xA2, 0x5D] }) ∧
    exec (.modernPeriodicReq l) s = .next s

/-! ## The CRC Engine -/

/-- R131: CRC_LEGACY returns the sum of the first `n - 2` bytes modulo 2^16 and changes nothing else. -/
def Obligations.LegacyChecksumIsSum : Prop :=
  ∀ (s : State) (b : List Byte) (n : Nat), 2 ≤ n → n ≤ b.length →
    exec (.crcLegacy b n) s = .next { s with
      result := .word (BitVec.ofNat 16 (((b.take (n - 2)).map BitVec.toNat).sum % 2 ^ 16)) }

/-- R132: CRC_MODERN returns the register after the bit-serial loop over the first `n - 2` bytes and changes nothing
else. -/
def Obligations.ModernChecksumIsBitSerial : Prop :=
  ∀ (s : State) (b : List Byte) (n : Nat), 2 ≤ n → n ≤ b.length →
    exec (.crcModern b n) s = .next { s with
      result := .word ((b.take (n - 2)).foldl
        (fun r x => (List.range 8).foldl
          (fun r _ => if r.getLsbD 0 then (r >>> 1) ^^^ 0xA001 else r >>> 1) (r ^^^ x.setWidth 16)) 0x7F3C) }

/-- R133: CK_FIELD returns the two bytes at `n-2` and `n-1`, low byte first for modern, high byte first for legacy;
with the switch of R69 off, low byte first for legacy too, which is the model's reading of R69 (log 20). -/
def Obligations.ChecksumFieldByteOrder : Prop :=
  ∀ (s : State) (b : List Byte) (n : Nat), 2 ≤ n → n ≤ b.length →
    ∃ x y : Byte, b[n - 2]? = some x ∧ b[n - 1]? = some y ∧
      exec (.ckField .modern b n) s =
        .next { s with result := .word (BitVec.ofNat 16 (x.toNat + 256 * y.toNat)) } ∧
      exec (.ckField .legacy b n) s = .next { s with
        result := .word (if s.cfg.legacyCkBigEndian then BitVec.ofNat 16 (256 * x.toNat + y.toNat)
          else BitVec.ofNat 16 (x.toNat + 256 * y.toNat)) }

/-- R134: CK_VALID returns whether the computed value equals the stored value, all 16 bits, each as the engine's own
instructions return them. -/
def Obligations.ChecksumValidity : Prop :=
  ∀ (s : State) (b : List Byte) (n : Nat), 2 ≤ n → n ≤ b.length →
    (∃ x y, exec (.crcLegacy b n) s = .next { s with result := .word x } ∧
      exec (.ckField .legacy b n) s = .next { s with result := .word y } ∧
      exec (.ckValid .legacy b n) s = .next { s with result := .flag (decide (x = y)) }) ∧
    ∃ x y, exec (.crcModern b n) s = .next { s with result := .word x } ∧
      exec (.ckField .modern b n) s = .next { s with result := .word y } ∧
      exec (.ckValid .modern b n) s = .next { s with result := .flag (decide (x = y)) }

/-- R135, U3: a length below 2, or above the sequence's, is refused. R135 speaks of CRC_LEGACY and CRC_MODERN; that
CK_FIELD is refused for the same lengths is the model's reading of R133's `n >= 2` (log 16). -/
def Obligations.BadChecksumLengthRefused : Prop :=
  ∀ (s : State) (v : Variant) (b : List Byte) (n : Nat), (n < 2 ∨ b.length < n) →
    exec (.crcLegacy b n) s = .refused (.badLength b.length n) ∧
    exec (.crcModern b n) s = .refused (.badLength b.length n) ∧
    exec (.ckField v b n) s = .refused (.badLength b.length n) ∧
    exec (.ckValid v b n) s = .refused (.badLength b.length n)

/-- R139: flipping any single covered bit changes both checksums, and makes a valid message invalid under the same
variant. -/
def Obligations.SingleBitFlipBreaksChecksum : Prop :=
  ∀ (c : Config) (v : Variant) (b : List Byte) (n i k : Nat), n ≤ b.length → i < n - 2 → k < 8 →
    crcLegacy (flipBit b i k) n ≠ crcLegacy b n ∧ crcModern (flipBit b i k) n ≠ crcModern b n ∧
      (ckValid c v b n → ckValid c v (flipBit b i k) n = false)

/-! ## The Frame Validator -/

/-- R151, R153: HS_MATCH says whether the literal is a prefix of the sequence, HS_PENDING whether the sequence is a
non-empty proper prefix of the literal. -/
def Obligations.HandshakePredicates : Prop :=
  ∀ (s : State) (v : Variant) (b : List Byte), ∃ m p : Bool,
    exec (.hsMatch v b) s = .next { s with result := .flag m } ∧
    exec (.hsPending v b) s = .next { s with result := .flag p } ∧
    (m = true ↔ ∃ rest, b = hsreq v ++ rest) ∧
    (p = true ↔ b ≠ [] ∧ ∃ rest, rest ≠ [] ∧ hsreq v = b ++ rest)

/-- R152: FRAME_MATCH's four conjuncts. -/
def Obligations.FrameMatchConjuncts : Prop :=
  ∀ (s : State) (v : Variant) (b : List Byte), ∃ m : Bool,
    exec (.frameMatch v b) s = .next { s with result := .flag m } ∧
    (m = true ↔ ∃ x y rest, b = x :: y :: rest ∧ 16 ≤ b.length ∧ x = 0xAA ∧
      (y.getLsbD 7 = true ↔ v = .modern) ∧
      exec (.ckValid v (b.take 16) 16) s = .next { s with result := .flag true })

/-- R154: FRAME_PENDING: non-empty, shorter than a frame, the start byte first, and the polarity of `v` if the byte that
carries it has arrived. -/
def Obligations.FramePendingConjuncts : Prop :=
  ∀ (s : State) (v : Variant) (b : List Byte), ∃ p : Bool,
    exec (.framePending v b) s = .next { s with result := .flag p } ∧
    (p = true ↔ b.length < 16 ∧ ∃ rest, b = 0xAA :: rest ∧
      ∀ y ys, rest = y :: ys → (y.getLsbD 7 = true ↔ v = .modern))

/-- R158: below 16 bytes FRAME_MATCH is false and CLASSIFY is never a frame. -/
def Obligations.ShortBuffersAreNoFrame : Prop :=
  ∀ (s : State) (v : Variant) (b : List Byte) (V : List Variant), b.length < 16 →
    exec (.frameMatch v b) s = .next { s with result := .flag false } ∧ classify s.cfg b V ≠ .frame v

/-- R159: at most one of the four matches holds, none beside a pending predicate, and CLASSIFY does not depend on the
order of the registry. -/
def Obligations.MatchesAreExclusive : Prop :=
  ∀ (c : Config) (b : List Byte),
    (∀ v w, hsMatch v b → hsMatch w b → v = w) ∧
    (∀ v w, frameMatch c v b → frameMatch c w b → v = w) ∧
    (∀ v w, ¬ (hsMatch v b ∧ frameMatch c w b)) ∧
    (∀ v w, (hsMatch v b ∨ frameMatch c v b) → hsPending w b = false ∧ framePending c w b = false) ∧
    classify c b [.modern, .legacy] = classify c b [.legacy, .modern]

/-- R155: CLASSIFY of a non-empty sequence and a candidate set: a handshake or frame exactly where that candidate's
predicate holds, Pending exactly where none matches and one is pending, else NoMatch. -/
def Obligations.ClassifyFollowsPredicates : Prop :=
  ∀ (s : State) (b : List Byte) (sel : Option Variant), b ≠ [] →
    ∃ k, exec (.classify b (candidates s.cfg sel)) s = .next { s with result := .cls k } ∧
      (∀ v, k = .handshake v ↔ (sel = none ∨ sel = some v) ∧ hsMatch v b) ∧
      (∀ v, k = .frame v ↔ (sel = none ∨ sel = some v) ∧ frameMatch s.cfg v b) ∧
      (k = .pending ↔
        (∀ v, sel = none ∨ sel = some v → ¬ hsMatch v b ∧ ¬ frameMatch s.cfg v b) ∧
          ∃ v, (sel = none ∨ sel = some v) ∧ (hsPending v b ∨ framePending s.cfg v b))

/-- R157: RESYNC of a sequence that classifies as NoMatch: the least offset from 1 on at which the rest does not, or
the whole length. -/
def Obligations.ResyncFindsFirstUsableOffset : Prop :=
  ∀ (s : State) (b : List Byte) (V : List Variant), b ≠ [] → classify s.cfg b V = .noMatch →
    ∃ k, exec (.resync b V) s = .next { s with result := .count k } ∧ 1 ≤ k ∧ k ≤ b.length ∧
      (∀ j, 1 ≤ j → j < k → classify s.cfg (b.drop j) V = .noMatch) ∧
      (k < b.length → classify s.cfg (b.drop k) V ≠ .noMatch)

/-- R161: with the candidate set fixed to the frame's own variant, a valid 16-byte frame is accepted, and every
single-bit corruption of bytes 0 to 13 is rejected. -/
def Obligations.FrameRoundTripUnderOneVariant : Prop :=
  ∀ (c : Config) (v : Variant) (f : List Byte) (i k : Nat),
    f.length = 16 → frameMatch c v f → i < 14 → k < 8 →
      classify c f [v] = .frame v ∧ classify c (flipBit f i k) [v] = .noMatch

/-! ## Selection, enter, demote -/

/-- R176: SELECT writes `sel` only where none is selected, and nothing else. -/
def Obligations.SelectIsSticky : Prop :=
  ∀ (s : State) (l : Nat) (L : Link) (v : Variant), s.link? l = some L →
    exec (.select l v) s = .next (s.setLink l { L with sel := if L.sel = none then some v else L.sel })

/-- R187: what entering each state writes; with no selection, where R187 states no bytes, Pairing and StreamingPeriodic
append some bytes, a free value (log 14). -/
def Obligations.EnterWritesEntryAction : Prop :=
  ∀ (s : State) (l : Nat) (L : Link), s.link? l = some L →
    exec (.enter l .disconnected) s =
      .next (s.setLink l { L with cs := .disconnected, tEntry := s.now, sel := none }) ∧
    exec (.enter l .streamingParse) s =
      .next (s.setLink l { L with cs := .streamingParse, tEntry := s.now, pkt := 0 }) ∧
    exec (.enter l .error) s = .next (s.setLink l { L with cs := .error, tEntry := s.now }) ∧
    (L.sel = some .legacy →
      exec (.enter l .pairing) s = .next (s.setLink l { L with
        cs := .pairing, tEntry := s.now, txq := enqueue s.cfg L.txq legacyHsRspBytes }) ∧
      exec (.enter l .streamingPeriodic) s = .next (s.setLink l { L with
        cs := .streamingPeriodic, tEntry := s.now, txq := enqueue s.cfg L.txq legacyPeriodicReqBytes })) ∧
    (L.sel = some .modern →
      exec (.enter l .pairing) s = .next (s.setLink l { L with
        cs := .pairing, tEntry := s.now, txq := enqueue s.cfg L.txq modernHsRspBytes }) ∧
      exec (.enter l .streamingPeriodic) s = .next (s.setLink l { L with
        cs := .streamingPeriodic, tEntry := s.now })) ∧
    (L.sel = none → ∃ m n : List Byte,
      exec (.enter l .pairing) s = .next (s.setLink l { L with
        cs := .pairing, tEntry := s.now, txq := enqueue s.cfg L.txq m }) ∧
      exec (.enter l .streamingPeriodic) s = .next (s.setLink l { L with
        cs := .streamingPeriodic, tEntry := s.now, txq := enqueue s.cfg L.txq n }))

/-- R188: DEMOTE counts, enters Disconnected, clears the selection, and keeps the buffer. That its assignments are the
same when it is run in Disconnected or Error is the model's reading (log 27). -/
def Obligations.DemoteReturnsToDisconnected : Prop :=
  ∀ (s : State) (l : Nat) (L : Link), s.link? l = some L →
    exec (.demote l) s = .next (s.setLink l { L with
      dcc := if L.dcc = 255 then 255 else L.dcc + 1
      cs := .disconnected
      tEntry := s.now
      sel := none })

/-! ## Phase A -/

/-- R190, R290: T1 leaves Error, clearing `dcc` and the selection. -/
def Obligations.ErrorIsLeftAtTheNextTick : Prop :=
  ∀ (s : State) (l : Nat) (L : Link), s.link? l = some L → L.cs = .error →
    exec (.t1ErrorToDisconnected l) s = .next (s.setLink l { L with
      dcc := 0, cs := .disconnected, tEntry := s.now, sel := none })

/-- R191: T2 returns to StreamingParse with `pkt` cleared, keeping the selection and `dcc`. -/
def Obligations.PeriodicReturnsToParse : Prop :=
  ∀ (s : State) (l : Nat) (L : Link), s.link? l = some L → L.cs = .streamingPeriodic →
    exec (.t2PeriodicToParse l) s = .next (s.setLink l { L with cs := .streamingParse, tEntry := s.now, pkt := 0 })

/-- R192, R287, R289: T3 enters Error and raises one ProtocolMismatch; buffer, `dcc` and the rest are kept; and the tick
of that link ends there. -/
def Obligations.MismatchEntersError : Prop :=
  ∀ (s : State) (l : Nat) (L : Link), s.link? l = some L → L.cs = .disconnected →
    s.cfg.disconnectLimit < L.dcc.toNat →
    exec (.t3DisconnectedToError l) s = .next { s.setLink l { L with cs := .error, tEntry := s.now } with
      errOut := s.errOut ++ [{ link := l, kind := .protocolMismatch, raw := 0 }] } ∧
    exec (.processLink l) s = exec (.t3DisconnectedToError l) s

/-- R198: T9 demotes when more than `T_PAIR` has passed since the entry into Pairing; no event. -/
def Obligations.PairingTimesOut : Prop :=
  ∀ (s : State) (l : Nat) (L : Link), s.link? l = some L → L.cs = .pairing →
    s.cfg.tPair < elapsed s.cfg s.now L.tEntry →
    exec (.t9PairingTimeout l) s = .next (s.setLink l (L.demoted s.now))

/-- R199, R286: T10 raises one LinkLost and demotes when more than `T_UNACTIVE` has passed since the last byte. -/
def Obligations.LinkLostDemotes : Prop :=
  ∀ (s : State) (l : Nat) (L : Link), s.link? l = some L → L.cs = .streamingParse →
    s.cfg.tUnactive < elapsed s.cfg s.now L.tLast →
    exec (.t10LinkLost l) s = .next { s.setLink l (L.demoted s.now) with
      errOut := s.errOut ++ [{ link := l, kind := .linkLost, raw := 0 }] }

/-- R200: T11 enters StreamingPeriodic and queues the periodic request when `T_STREAM` has passed since the entry and
the link is not lost; `pkt` is kept. -/
def Obligations.StreamTimeEntersPeriodic : Prop :=
  ∀ (s : State) (l : Nat) (L : Link) (v : Variant), s.link? l = some L → L.cs = .streamingParse → L.sel = some v →
    elapsed s.cfg s.now L.tLast ≤ s.cfg.tUnactive → s.cfg.tStream ≤ elapsed s.cfg s.now L.tEntry →
    exec (.t11StreamTime l) s = .next (s.setLink l { L with
      cs := .streamingPeriodic
      tEntry := s.now
      txq := enqueue s.cfg L.txq (match v with
        | .legacy => [0xAA, 0x13, 0xEC, 0x07, 0x09, 0x6F, 0x28, 0xD7]
        | .modern => []) })

/-! ## Phase B -/

/-- R193, R203: T4 selects the frame's variant, enters StreamingParse, and accepts the frame: delivered, consumed,
counted as the first, `dcc` cleared, then T13 evaluated. -/
def Obligations.DirectFrameStartsStreaming : Prop :=
  ∀ (s : State) (l : Nat) (L : Link) (v : Variant), s.link? l = some L → L.cs = .disconnected →
    classOf s.cfg L = .frame v →
    exec (.t4DisconnectedFrame l) s = .next (s.delivered l v L (Link.counted s.cfg s.now v { L with
      sel := some v
      cs := .streamingParse
      tEntry := s.now
      pkt := 1
      dcc := 0
      buf := L.buf.drop 16 }))

/-- R194: T5 selects the variant, consumes the request, enters Pairing and queues the variant's response once; `dcc` is
kept. -/
def Obligations.HandshakeIsAnswered : Prop :=
  ∀ (s : State) (l : Nat) (L : Link) (v : Variant), s.link? l = some L → L.cs = .disconnected →
    classOf s.cfg L = .handshake v →
    exec (.t5DisconnectedHandshake l) s = .next (s.setLink l { L with
      sel := some v
      buf := L.buf.drop (match v with | .legacy => 16 | .modern => 10)
      cs := .pairing
      tEntry := s.now
      txq := enqueue s.cfg L.txq (match v with
        | .legacy => [0x2B, 0x50, 0x41, 0x53, 0x53, 0x3D, 0x4F, 0x4E, 0x4E, 0x44, 0x4F, 0x4E, 0x4B, 0x45]
        | .modern => [0xAA, 0x13, 0xEC, 0x07, 0x01, 0xF1, 0xA2, 0x5D]) })

/-- R195: T6 discards exactly the bytes RESYNC says, at least one, and changes nothing else. -/
def Obligations.ResyncDiscardsAndStays : Prop :=
  ∀ (s : State) (l : Nat) (L : Link), s.link? l = some L → L.cs = .disconnected → L.buf ≠ [] →
    classOf s.cfg L = .noMatch →
    ∃ k, 1 ≤ k ∧ k ≤ L.buf.length ∧
      exec (.resync L.buf (candidates s.cfg L.sel)) s = .next { s with result := .count k } ∧
      exec (.t6DisconnectedResync l) s = .next (s.setLink l { L with buf := L.buf.drop k })

/-- R196, R203: T7 enters StreamingParse and accepts the frame as the first of the episode. -/
def Obligations.FirstFrameEndsPairing : Prop :=
  ∀ (s : State) (l : Nat) (L : Link) (v : Variant), s.link? l = some L → L.cs = .pairing → L.sel = some v →
    classOf s.cfg L = .frame v →
    exec (.t7PairingFrame l) s = .next (s.delivered l v L (Link.counted s.cfg s.now v { L with
      cs := .streamingParse
      tEntry := s.now
      pkt := 1
      dcc := 0
      buf := L.buf.drop 16 }))

/-- R197: T8 demotes from Pairing on unrecognisable bytes and consumes nothing. -/
def Obligations.PairingNomatchDemotes : Prop :=
  ∀ (s : State) (l : Nat) (L : Link), s.link? l = some L → L.cs = .pairing → L.buf ≠ [] →
    classOf s.cfg L = .noMatch → exec (.t8PairingNomatch l) s = .next (s.setLink l (L.demoted s.now))

/-- R201: T12 demotes from a streaming state on a handshake request or on unrecognisable bytes, consuming nothing and
raising nothing. -/
def Obligations.StreamingDemotes : Prop :=
  ∀ (s : State) (l : Nat) (L : Link), s.link? l = some L →
    (L.cs = .streamingParse ∨ L.cs = .streamingPeriodic) → L.buf ≠ [] →
    (classOf s.cfg L = .noMatch ∨ ∃ v, classOf s.cfg L = .handshake v) →
    exec (.t12StreamingDemote l) s = .next (s.setLink l (L.demoted s.now))

/-- R202: a repeated request in Pairing is consumed; nothing is emitted and the timeout keeps running. -/
def Obligations.RepeatedHandshakeIsConsumed : Prop :=
  ∀ (s : State) (l : Nat) (L : Link) (v : Variant), s.link? l = some L → L.cs = .pairing →
    classOf s.cfg L = .handshake v →
    exec (.pairingHsRepeat l) s = .next (s.setLink l { L with
      buf := L.buf.drop (match v with | .legacy => 16 | .modern => 10) })

/-- R203: the frame-accept action in the state held: `dcc` cleared, the 16 bytes delivered and consumed, `pkt` counted,
then T13 evaluated if the state is StreamingParse. That it acts so when it is run alone in a state where R203 does not
run it is the model's reading (log 27). -/
def Obligations.FrameIsAccepted : Prop :=
  ∀ (s : State) (l : Nat) (L : Link) (v : Variant), s.link? l = some L → LinkInv s.cfg L →
    classOf s.cfg L = .frame v →
    exec (.frameAccept l) s = .next (s.delivered l v L (Link.counted s.cfg s.now v L.accepted))

/-- R204: T13 enters StreamingPeriodic and queues the periodic request when the threshold is not 0 and `pkt` has
reached it. -/
def Obligations.PacketCountEntersPeriodic : Prop :=
  ∀ (s : State) (l : Nat) (L : Link) (v : Variant), s.link? l = some L → L.cs = .streamingParse → L.sel = some v →
    (match v with | .legacy => s.cfg.pktThreshLegacy | .modern => s.cfg.pktThreshModern) ≠ 0 →
    (match v with | .legacy => s.cfg.pktThreshLegacy | .modern => s.cfg.pktThreshModern) ≤ L.pkt.toNat →
    exec (.t13StreamCount l) s = .next (s.setLink l { L with
      cs := .streamingPeriodic
      tEntry := s.now
      txq := enqueue s.cfg L.txq (match v with
        | .legacy => [0xAA, 0x13, 0xEC, 0x07, 0x09, 0x6F, 0x28, 0xD7]
        | .modern => []) })

/-- R205: Pending changes nothing. That PENDING_STOP changes nothing where the buffer does not classify as Pending is
the model's choice (log 12). -/
def Obligations.PendingChangesNothing : Prop :=
  ∀ (s : State) (l : Nat) (L : Link), s.link? l = some L → exec (.pendingStop l) s = .next s

/-- A transition whose condition does not hold leaves the state as it is: the model's reading of a rule that is run
where it does not apply, on an empty buffer too, which R155 does not classify (log 12). -/
def Obligations.RulesNeedTheirConditions : Prop :=
  ∀ (s : State) (l : Nat) (L : Link), s.link? l = some L →
    (L.cs ≠ .error → exec (.t1ErrorToDisconnected l) s = .next s) ∧
    (L.cs ≠ .streamingPeriodic → exec (.t2PeriodicToParse l) s = .next s) ∧
    (L.cs ≠ .disconnected ∨ L.dcc.toNat ≤ s.cfg.disconnectLimit → exec (.t3DisconnectedToError l) s = .next s) ∧
    (L.cs ≠ .disconnected ∨ (∀ v, classOf s.cfg L ≠ .frame v) → exec (.t4DisconnectedFrame l) s = .next s) ∧
    (L.cs ≠ .disconnected ∨ (∀ v, classOf s.cfg L ≠ .handshake v) →
      exec (.t5DisconnectedHandshake l) s = .next s) ∧
    (L.cs ≠ .disconnected ∨ L.buf = [] ∨ classOf s.cfg L ≠ .noMatch → exec (.t6DisconnectedResync l) s = .next s) ∧
    (L.cs ≠ .pairing ∨ (∀ v, classOf s.cfg L ≠ .frame v) → exec (.t7PairingFrame l) s = .next s) ∧
    (L.cs ≠ .pairing ∨ L.buf = [] ∨ classOf s.cfg L ≠ .noMatch → exec (.t8PairingNomatch l) s = .next s) ∧
    (L.cs ≠ .pairing ∨ elapsed s.cfg s.now L.tEntry ≤ s.cfg.tPair → exec (.t9PairingTimeout l) s = .next s) ∧
    (L.cs ≠ .streamingParse ∨ elapsed s.cfg s.now L.tLast ≤ s.cfg.tUnactive →
      exec (.t10LinkLost l) s = .next s) ∧
    (L.cs ≠ .streamingParse ∨ s.cfg.tUnactive < elapsed s.cfg s.now L.tLast ∨
      elapsed s.cfg s.now L.tEntry < s.cfg.tStream → exec (.t11StreamTime l) s = .next s) ∧
    ((L.cs ≠ .streamingParse ∧ L.cs ≠ .streamingPeriodic) ∨ L.buf = [] ∨
      (classOf s.cfg L ≠ .noMatch ∧ ∀ v, classOf s.cfg L ≠ .handshake v) →
        exec (.t12StreamingDemote l) s = .next s) ∧
    ((L.cs ≠ .streamingParse ∨ ∃ v, L.sel = some v ∧
      ((descriptor s.cfg v).pktThresh = 0 ∨ L.pkt.toNat < (descriptor s.cfg v).pktThresh)) →
        exec (.t13StreamCount l) s = .next s) ∧
    (L.cs ≠ .pairing ∨ (∀ v, classOf s.cfg L ≠ .handshake v) → exec (.pairingHsRepeat l) s = .next s) ∧
    ((∀ v, classOf s.cfg L ≠ .frame v) → exec (.frameAccept l) s = .next s)

/-! ## The transmit side and the status -/

/-- R260: TX_POP returns and removes the head of `txq`; an empty queue returns none and nothing changes. -/
def Obligations.TxPopTakesTheHead : Prop :=
  ∀ (s : State) (l : Nat) (L : Link), s.link? l = some L →
    (L.txq = [] → exec (.txPop l) s = .next { s with result := .popped none }) ∧
    ∀ (v : Byte) (q : List Byte), L.txq = v :: q →
      exec (.txPop l) s = .next { s.setLink l { L with txq := q } with result := .popped (some v) }

/-- R261, R25, R29: READ_STATUS returns `(cs, sel, len, dcc, pkt)` in their codes and changes nothing else. -/
def Obligations.ReadStatusReturnsRegisters : Prop :=
  ∀ (s : State) (l : Nat) (L : Link), s.link? l = some L →
    let st : Status := {
      cs := match L.cs with
        | .disconnected => 0
        | .pairing => 1
        | .streamingParse => 2
        | .streamingPeriodic => 3
        | .error => 4
      sel := match L.sel with
        | none => 0
        | some .legacy => 1
        | some .modern => 2
      len := L.buf.length
      dcc := L.dcc
      pkt := L.pkt }
    exec (.readStatus l) s = .next { s with result := .status st }
end

