-- ==== Sys2Proof/Laws/State.lean ====
section
/-! SUPPORT. One lemma per field per update of State, and what reading a link after writing one gives. -/

namespace Sys2Proof.Machine

open Sys2Proof

/-! ## setLink -/

@[simp] theorem State.setLink_cfg (s : State) (l : Nat) (L : Link) : (s.setLink l L).cfg = s.cfg := by
  cases l <;> rfl
@[simp] theorem State.setLink_now (s : State) (l : Nat) (L : Link) : (s.setLink l L).now = s.now := by
  cases l <;> rfl
@[simp] theorem State.setLink_frameOut (s : State) (l : Nat) (L : Link) :
    (s.setLink l L).frameOut = s.frameOut := by cases l <;> rfl
@[simp] theorem State.setLink_errOut (s : State) (l : Nat) (L : Link) :
    (s.setLink l L).errOut = s.errOut := by cases l <;> rfl
@[simp] theorem State.setLink_result (s : State) (l : Nat) (L : Link) :
    (s.setLink l L).result = s.result := by cases l <;> rfl
@[simp] theorem State.setLink_pending (s : State) (l : Nat) (L : Link) :
    (s.setLink l L).pending = s.pending := by cases l <;> rfl
@[simp] theorem State.setLink_length (s : State) (l : Nat) (L : Link) :
    (s.setLink l L).links.length = s.links.length := by cases l <;> simp [State.setLink]

/-! ## addFrames, addErrs, answer -/

@[simp] theorem State.addFrames_cfg (s : State) (l fs) : (s.addFrames l fs).cfg = s.cfg := rfl
@[simp] theorem State.addFrames_links (s : State) (l fs) : (s.addFrames l fs).links = s.links := rfl
@[simp] theorem State.addFrames_now (s : State) (l fs) : (s.addFrames l fs).now = s.now := rfl
@[simp] theorem State.addFrames_errOut (s : State) (l fs) : (s.addFrames l fs).errOut = s.errOut := rfl
@[simp] theorem State.addFrames_result (s : State) (l fs) : (s.addFrames l fs).result = s.result := rfl
@[simp] theorem State.addFrames_pending (s : State) (l fs) : (s.addFrames l fs).pending = s.pending := rfl
@[simp] theorem State.addFrames_frameOut (s : State) (l fs) :
    (s.addFrames l fs).frameOut = s.frameOut ++ fs.map (frameEvent l) := rfl
@[simp] theorem State.addErrs_cfg (s : State) (l ks) : (s.addErrs l ks).cfg = s.cfg := rfl
@[simp] theorem State.addErrs_links (s : State) (l ks) : (s.addErrs l ks).links = s.links := rfl
@[simp] theorem State.addErrs_now (s : State) (l ks) : (s.addErrs l ks).now = s.now := rfl
@[simp] theorem State.addErrs_frameOut (s : State) (l ks) : (s.addErrs l ks).frameOut = s.frameOut := rfl
@[simp] theorem State.addErrs_result (s : State) (l ks) : (s.addErrs l ks).result = s.result := rfl
@[simp] theorem State.addErrs_pending (s : State) (l ks) : (s.addErrs l ks).pending = s.pending := rfl
@[simp] theorem State.addErrs_errOut (s : State) (l ks) :
    (s.addErrs l ks).errOut = s.errOut ++ ks.map (errEvent l) := rfl
@[simp] theorem State.addFrames_nil (s : State) (l) : s.addFrames l [] = s := by simp [State.addFrames]
@[simp] theorem State.addErrs_nil (s : State) (l) : s.addErrs l [] = s := by simp [State.addErrs]
@[simp] theorem State.answer_cfg (s : State) (r) : (s.answer r).cfg = s.cfg := rfl
@[simp] theorem State.answer_links (s : State) (r) : (s.answer r).links = s.links := rfl
@[simp] theorem State.answer_now (s : State) (r) : (s.answer r).now = s.now := rfl
@[simp] theorem State.answer_frameOut (s : State) (r) : (s.answer r).frameOut = s.frameOut := rfl
@[simp] theorem State.answer_errOut (s : State) (r) : (s.answer r).errOut = s.errOut := rfl
@[simp] theorem State.answer_result (s : State) (r) : (s.answer r).result = r := rfl
@[simp] theorem State.answer_pending (s : State) (r) : (s.answer r).pending = s.pending := rfl

/-! ## accepting a request -/

@[simp] theorem State.accepting_cfg (s : State) (r rs) : (s.accepting r rs).cfg = s.cfg := rfl
@[simp] theorem State.accepting_links (s : State) (r rs) : (s.accepting r rs).links = s.links := rfl
@[simp] theorem State.accepting_now (s : State) (r rs) : (s.accepting r rs).now = sample s.cfg r.now := rfl
@[simp] theorem State.accepting_frameOut (s : State) (r rs) : (s.accepting r rs).frameOut = s.frameOut := rfl
@[simp] theorem State.accepting_errOut (s : State) (r rs) : (s.accepting r rs).errOut = s.errOut := rfl
@[simp] theorem State.accepting_result (s : State) (r rs) : (s.accepting r rs).result = s.result := rfl
@[simp] theorem State.accepting_pending (s : State) (r rs) : (s.accepting r rs).pending = rs := rfl

/-! ## Reading a link after an update -/

/-- A link index the block has is one of `1..` its number of links. -/
theorem State.link?_isSome (s : State) (l : Nat) : (s.link? l).isSome ↔ 1 ≤ l ∧ l ≤ s.links.length := by
  cases l <;> simp [State.link?]

theorem State.link?_setLink_same {s : State} {l : Nat} {L : Link} (L' : Link) (h : s.link? l = .some L) :
    (s.setLink l L').link? l = .some L' := by
  cases l with
  | zero => simp [State.link?] at h
  | succ k =>
    have hk : k < s.links.length := by
      have := (List.getElem?_eq_some_iff.1 (show s.links[k]? = .some L from h)).1
      exact this
    simp [State.link?, State.setLink, hk]

theorem State.link?_setLink_other {s : State} {l m : Nat} (L' : Link) (h : m ≠ l) :
    (s.setLink l L').link? m = s.link? m := by
  cases l with
  | zero => rfl
  | succ k =>
    cases m with
    | zero => rfl
    | succ j =>
      have : k ≠ j := fun e => h (by omega)
      simp [State.link?, State.setLink, this]

/-- Writing back the registers a link holds changes nothing. -/
theorem State.setLink_self {s : State} {l : Nat} {L : Link} (h : s.link? l = .some L) : s.setLink l L = s := by
  cases l with
  | zero => rfl
  | succ k =>
    have hk : s.links[k]? = .some L := h
    have : s.links.set k L = s.links := by
      apply List.ext_getElem?
      intro i
      rw [List.getElem?_set]
      split
      · rename_i e; subst e; split
        · exact hk.symm
        · rename_i hlt; rw [List.getElem?_eq_none (by omega)]
      · rfl
    simp [State.setLink, this]

@[simp] theorem State.link?_addFrames (s : State) (l fs m) : (s.addFrames l fs).link? m = s.link? m := by
  cases m <;> rfl
@[simp] theorem State.link?_addErrs (s : State) (l ks m) : (s.addErrs l ks).link? m = s.link? m := by
  cases m <;> rfl
@[simp] theorem State.link?_answer (s : State) (r m) : (s.answer r).link? m = s.link? m := by cases m <;> rfl
@[simp] theorem State.link?_accepting (s : State) (r rs m) : (s.accepting r rs).link? m = s.link? m := by
  cases m <;> rfl

/-! ## commit -/

@[simp] theorem State.commit_cfg (s : State) (l w) : (s.commit l w).cfg = s.cfg := by simp [State.commit]
@[simp] theorem State.commit_now (s : State) (l w) : (s.commit l w).now = s.now := by simp [State.commit]
@[simp] theorem State.commit_result (s : State) (l w) : (s.commit l w).result = s.result := by simp [State.commit]
@[simp] theorem State.commit_pending (s : State) (l w) : (s.commit l w).pending = s.pending := by
  simp [State.commit]
@[simp] theorem State.commit_frameOut (s : State) (l w) :
    (s.commit l w).frameOut = s.frameOut ++ w.frames.map (frameEvent l) := by simp [State.commit]
@[simp] theorem State.commit_errOut (s : State) (l w) :
    (s.commit l w).errOut = s.errOut ++ w.errs.map (errEvent l) := by simp [State.commit]
@[simp] theorem State.commit_length (s : State) (l w) : (s.commit l w).links.length = s.links.length := by
  simp [State.commit]

theorem State.link?_commit_same {s : State} {l : Nat} {L : Link} (w : Work) (h : s.link? l = .some L) :
    (s.commit l w).link? l = .some w.link := by
  simp [State.commit, State.link?_setLink_same w.link h]

theorem State.link?_commit_other {s : State} {l m : Nat} (w : Work) (h : m ≠ l) :
    (s.commit l w).link? m = s.link? m := by
  simp [State.commit, State.link?_setLink_other w.link h]

/-- An operation that delivered and raised nothing wrote the link's registers only. -/
theorem State.commit_regs (s : State) (l : Nat) (L : Link) (d : Bool) :
    s.commit l { link := L, frames := [], errs := [], discarded := d } = s.setLink l L := by
  simp [State.commit]

/-! ## Work -/

@[simp] theorem Work.start_link (L : Link) : (Work.start L).link = L := rfl
@[simp] theorem Work.start_frames (L : Link) : (Work.start L).frames = [] := rfl
@[simp] theorem Work.start_errs (L : Link) : (Work.start L).errs = [] := rfl
@[simp] theorem Work.start_discarded (L : Link) : (Work.start L).discarded = false := rfl
@[simp] theorem Work.upd_link (w : Work) (f : Link → Link) : (w.upd f).link = f w.link := rfl
@[simp] theorem Work.upd_frames (w : Work) (f : Link → Link) : (w.upd f).frames = w.frames := rfl
@[simp] theorem Work.upd_errs (w : Work) (f : Link → Link) : (w.upd f).errs = w.errs := rfl
@[simp] theorem Work.upd_discarded (w : Work) (f : Link → Link) : (w.upd f).discarded = w.discarded := rfl
@[simp] theorem Work.raise_link (w : Work) (k : ErrKind) : (w.raise k).link = w.link := rfl
@[simp] theorem Work.raise_frames (w : Work) (k : ErrKind) : (w.raise k).frames = w.frames := rfl
@[simp] theorem Work.raise_errs (w : Work) (k : ErrKind) : (w.raise k).errs = w.errs ++ [k] := rfl
@[simp] theorem Work.raise_discarded (w : Work) (k : ErrKind) : (w.raise k).discarded = w.discarded := rfl
@[simp] theorem Work.deliver_link (w : Work) (v : Variant) (f : List Byte) : (w.deliver v f).link = w.link := rfl
@[simp] theorem Work.deliver_frames (w : Work) (v : Variant) (f : List Byte) :
    (w.deliver v f).frames = w.frames ++ [(v, f)] := rfl
@[simp] theorem Work.deliver_errs (w : Work) (v : Variant) (f : List Byte) : (w.deliver v f).errs = w.errs := rfl
@[simp] theorem Work.deliver_discarded (w : Work) (v : Variant) (f : List Byte) :
    (w.deliver v f).discarded = w.discarded := rfl

end Sys2Proof.Machine
end

