-- ==== Sys2Proof/Laws/Ops.lean ====
section
/-! SUPPORT. For each shared operation of Machine/Ops.lean and Machine/Operands.lean, what it can do, said once. -/

namespace Sys2Proof.Machine

open Sys2Proof

/-! ## The link operand -/

theorem State.updLink_eq {s : State} {l : Nat} {L : Link} (f : Config → Nat → Work → Work)
    (h : s.link? l = .some L) : s.updLink l f = s.commit l (f s.cfg s.now (Work.start L)) := by
  simp [State.updLink, h]

/-- On a link the block has, an operation answers the committed work. -/
theorem onLink_eq {s : State} {l : Nat} {L : Link} (f : Config → Nat → Work → Work) (h : s.link? l = .some L) :
    onLink l s f = .next (s.commit l (f s.cfg s.now (Work.start L))) := by
  simp [onLink, h, State.updLink_eq f h]

theorem onLink_refused {s : State} {l : Nat} (f : Config → Nat → Work → Work) (h : s.link? l = .none) :
    onLink l s f = .refused (.badLink l) := by simp [onLink, h]

/-- An operation on registers alone answers the state with that link written and nothing else. -/
theorem onRegs_eq {s : State} {l : Nat} {L : Link} (f : Config → Nat → Link → Link) (h : s.link? l = .some L) :
    onRegs l s f = .next (s.setLink l (f s.cfg s.now L)) := by
  simp [onRegs, onLink_eq _ h, Work.upd, Work.start, State.commit]

theorem onRegs_refused {s : State} {l : Nat} (f : Config → Nat → Link → Link) (h : s.link? l = .none) :
    onRegs l s f = .refused (.badLink l) := onLink_refused _ h

/-- If an operation on a link answers a next state, the block has the link and the state is the committed work. -/
theorem onLink_next {s t : State} {l : Nat} {f : Config → Nat → Work → Work} (h : onLink l s f = .next t) :
    ∃ L, s.link? l = .some L ∧ t = s.commit l (f s.cfg s.now (Work.start L)) := by
  cases hl : s.link? l with
  | none => rw [onLink_refused f hl] at h; cases h
  | some L => rw [onLink_eq f hl] at h; cases h; exact ⟨L, rfl, rfl⟩

theorem onMessage_eq {b : List Byte} {n : Nat} (s : State) (r : Result) (h : 2 ≤ n ∧ n ≤ b.length) :
    onMessage b n s r = .next (s.answer r) := by simp [onMessage, h]

theorem onMessage_refused {b : List Byte} {n : Nat} (s : State) (r : Result) (h : ¬ (2 ≤ n ∧ n ≤ b.length)) :
    onMessage b n s r = .refused (.badLength b.length n) := by
  unfold onMessage; rw [if_neg h]

/-! ## Time -/

theorem sample_lt (c : Config) (t : Nat) : sample c t < 2 ^ c.timeW := Nat.mod_lt _ (Nat.two_pow_pos _)

theorem elapsed_lt (c : Config) (now t : Nat) : elapsed c now t < 2 ^ c.timeW := by
  have h : (0 : Int) < 2 ^ c.timeW := Int.pow_pos (by decide)
  have h1 := Int.emod_lt_of_pos ((now : Int) - t) h
  have h2 := Int.emod_nonneg ((now : Int) - t) (Int.ne_of_gt h)
  have h3 : ((2 ^ c.timeW : Nat) : Int) = 2 ^ c.timeW := by push_cast; rfl
  unfold elapsed; omega

/-- Where `now` has not wrapped since, the elapsed time is the difference. -/
theorem elapsed_of_le {c : Config} {now t : Nat} (h : t ≤ now) (hn : now < 2 ^ c.timeW) :
    elapsed c now t = now - t := by
  have h3 : ((2 ^ c.timeW : Nat) : Int) = 2 ^ c.timeW := by push_cast; rfl
  unfold elapsed
  rw [Int.emod_eq_of_lt (by omega) (by omega)]; omega

/-! ## The transmit queue -/

@[simp] theorem enqueue_nil (c : Config) (q : List Byte) : enqueue c q [] = q := by
  unfold enqueue; split <;> simp

theorem enqueue_unbounded {c : Config} (h : c.txqCap = .none) (q m : List Byte) : enqueue c q m = q ++ m := by
  simp [enqueue, h]

/-- With room for it, a message goes to the tail whole (R14). -/
theorem enqueue_room {c : Config} {n : Nat} {q m : List Byte} (h : c.txqCap = .some n) (hm : q.length + m.length ≤ n) :
    enqueue c q m = q ++ m := by simp [enqueue, h, hm]

/-- A queue stays within its capacity. -/
theorem enqueue_queueOk {c : Config} {q : List Byte} (m : List Byte) (h : queueOk c q = true) :
    queueOk c (enqueue c q m) = true := by
  unfold queueOk enqueue at *
  cases hc : c.txqCap with
  | none => rfl
  | some n =>
    simp only [hc, decide_eq_true_eq] at h ⊢
    split
    · rename_i hm; rcases hm with rfl | hm <;> simp only [List.length_append, List.length_nil] <;> omega
    · simp only [List.length_take]; omega

/-- Taking the head keeps a queue within its capacity (R260). -/
theorem queueOk_tail {c : Config} {b : Byte} {q : List Byte} (h : queueOk c (b :: q) = true) : queueOk c q = true := by
  unfold queueOk at *
  cases hc : c.txqCap with
  | none => rfl
  | some n => simp only [hc, decide_eq_true_eq, List.length_cons] at h ⊢; omega

/-! ## The buffer primitives keep the buffer's form -/

theorem memWrite_tail (m : Memory) (v : Byte) : memWrite m m.length v = m ++ [v] := by simp [memWrite]

/-- The cells of a buffer list the offsets below `len`, each once, rising. -/
theorem Memory.cells_map_fst (m : Memory) : m.cells.map Prod.fst = List.range m.length := by
  simp only [Memory.cells, List.map_map]
  rw [List.range_eq_range', ← List.zipIdx_map_snd 0 m]
  rfl

theorem append_stored {c : Config} {L : Link} (now : Nat) (v : Byte) (h : L.buf.length < c.bufCap) :
    append c now v L = ({ L with buf := L.buf ++ [v], tLast := now }, true) := by
  simp [append, h, memWrite]

theorem append_dropped {c : Config} {L : Link} (now : Nat) (v : Byte) (h : ¬ L.buf.length < c.bufCap) :
    append c now v L = (L, false) := by simp [append, h]

/-- What a run of appends does: the bytes that fit go to the tail, `t_last` is stamped if one was stored, the rest is
dropped (R64, R252). -/
theorem appendAll_eq (c : Config) (now : Nat) (bs : List Byte) : ∀ L : Link,
    appendAll c now bs L =
      ({ L with
          buf := L.buf ++ bs.take (c.bufCap - L.buf.length)
          tLast := if bs.take (c.bufCap - L.buf.length) = [] then L.tLast else now },
        bs.length - (c.bufCap - L.buf.length)) := by
  induction bs with
  | nil => intro L; simp [appendAll]
  | cons v vs ih =>
    intro L
    unfold appendAll
    by_cases hl : L.buf.length < c.bufCap
    · obtain ⟨k, hk⟩ : ∃ k, c.bufCap - L.buf.length = k + 1 := ⟨c.bufCap - L.buf.length - 1, by omega⟩
      have hk' : c.bufCap - (L.buf.length + 1) = k := by omega
      rw [append_stored now v hl]
      simp [ih, hk, hk']
    · have h0 : c.bufCap - L.buf.length = 0 := by omega
      rw [append_dropped now v hl]
      simp [ih, h0]

theorem append_wf {c : Config} {L : Link} (now : Nat) (v : Byte) (h : L.buf.wf c.bufCap) :
    (append c now v L).1.buf.wf c.bufCap := by
  by_cases hl : L.buf.length < c.bufCap
  · rw [append_stored now v hl]; simp only [Memory.wf, List.length_append, List.length_singleton]; omega
  · rw [append_dropped now v hl]; exact h

theorem appendAll_wf {c : Config} (now : Nat) (bs : List Byte) :
    ∀ {L : Link}, L.buf.wf c.bufCap → (appendAll c now bs L).1.buf.wf c.bufCap := by
  induction bs with
  | nil => intro L h; exact h
  | cons v vs ih =>
    intro L h
    have h' := append_wf now v h
    unfold appendAll
    cases ha : append c now v L with
    | mk L' b => rw [ha] at h'; cases b <;> exact ih h'

theorem consume_wf {cap : Nat} {L : Link} (k : Nat) (h : L.buf.wf cap) : (consume k L).buf.wf cap := by
  simp only [Memory.wf, consume, List.length_drop] at *; omega

theorem clear_wf (cap : Nat) (L : Link) : (clear L).buf.wf cap := by simp [clear]

theorem idleReset_wf {c : Config} {L : Link} (now : Nat) (h : L.buf.wf c.bufCap) :
    (idleReset c now L).buf.wf c.bufCap := by
  unfold idleReset; split
  · exact clear_wf _ _
  · exact h

/-- Every link after reset holds a well-formed buffer. -/
theorem Link.reset_wf (cap : Nat) : Link.reset.buf.wf cap := by simp [Link.reset]

/-- The idle reset changes the buffer only. -/
theorem idleReset_cases (c : Config) (now : Nat) (L : Link) :
    idleReset c now L = L ∨ idleReset c now L = { L with buf := [] } := by
  unfold idleReset; split
  · exact .inr rfl
  · exact .inl rfl

/-! ## enter and demote -/

@[simp] theorem enter_cs (c : Config) (now : Nat) (S : ConnState) (L : Link) : (enter c now S L).cs = S := by
  cases S <;> rfl
@[simp] theorem enter_tEntry (c : Config) (now : Nat) (S : ConnState) (L : Link) :
    (enter c now S L).tEntry = now := by cases S <;> rfl
@[simp] theorem enter_buf (c : Config) (now : Nat) (S : ConnState) (L : Link) :
    (enter c now S L).buf = L.buf := by cases S <;> rfl
@[simp] theorem enter_tLast (c : Config) (now : Nat) (S : ConnState) (L : Link) :
    (enter c now S L).tLast = L.tLast := by cases S <;> rfl
@[simp] theorem enter_dcc (c : Config) (now : Nat) (S : ConnState) (L : Link) :
    (enter c now S L).dcc = L.dcc := by cases S <;> rfl
@[simp] theorem demote_cs (c : Config) (now : Nat) (L : Link) : (demote c now L).cs = .disconnected := rfl
@[simp] theorem demote_sel (c : Config) (now : Nat) (L : Link) : (demote c now L).sel = .none := rfl
@[simp] theorem demote_buf (c : Config) (now : Nat) (L : Link) : (demote c now L).buf = L.buf := rfl
@[simp] theorem demote_tLast (c : Config) (now : Nat) (L : Link) : (demote c now L).tLast = L.tLast := rfl
@[simp] theorem demote_tEntry (c : Config) (now : Nat) (L : Link) : (demote c now L).tEntry = now := rfl
@[simp] theorem demote_dcc (c : Config) (now : Nat) (L : Link) : (demote c now L).dcc = satInc L.dcc := rfl
@[simp] theorem demote_pkt (c : Config) (now : Nat) (L : Link) : (demote c now L).pkt = L.pkt := rfl
@[simp] theorem demote_txq (c : Config) (now : Nat) (L : Link) : (demote c now L).txq = L.txq := rfl

/-- SELECT leaves a variant selected. -/
theorem select_sel (v : Variant) (L : Link) : (select v L).sel ≠ .none := by
  unfold select; split
  · simp
  · assumption

@[simp] theorem select_buf (v : Variant) (L : Link) : (select v L).buf = L.buf := by unfold select; split <;> rfl
@[simp] theorem select_cs (v : Variant) (L : Link) : (select v L).cs = L.cs := by unfold select; split <;> rfl

/-! ## Codes are distinct (R25, R29, R281) -/

theorem csCode_injective (a b : ConnState) (h : csCode a = csCode b) : a = b := by
  cases a <;> cases b <;> first | rfl | exact absurd h (by decide)

theorem selCode_injective (a b : Option Variant) (h : selCode a = selCode b) : a = b := by
  rcases a with _ | (_ | _) <;> rcases b with _ | (_ | _) <;> first | rfl | exact absurd h (by decide)

theorem kindCode_injective (a b : ErrKind) (h : kindCode a = kindCode b) : a = b := by
  cases a <;> cases b <;> first | rfl | exact absurd h (by decide)

/-! ## Classification -/

/-- The first match found is a match of a candidate. -/
theorem firstMatch_spec {c : Config} {b : List Byte} {V : List Variant} {k : Class}
    (h : firstMatch c b V = .some k) :
    ∃ v ∈ V, (k = .handshake v ∧ hsMatch v b) ∨ (k = .frame v ∧ frameMatch c v b) := by
  induction V with
  | nil => cases h
  | cons v vs ih =>
    unfold firstMatch at h
    split at h
    · cases h; exact ⟨v, by simp, .inl ⟨rfl, by assumption⟩⟩
    · split at h
      · cases h; exact ⟨v, by simp, .inr ⟨rfl, by assumption⟩⟩
      · obtain ⟨w, hw, hk⟩ := ih h; exact ⟨w, by simp [hw], hk⟩

/-- A buffer classified as a handshake request opens with a candidate's. -/
theorem classify_handshake {c : Config} {b : List Byte} {V : List Variant} {v : Variant}
    (h : classify c b V = .handshake v) : v ∈ V ∧ hsMatch v b := by
  unfold classify at h
  split at h
  · rename_i r hr
    subst h
    obtain ⟨w, hw, ⟨he, hm⟩ | ⟨he, _⟩⟩ := firstMatch_spec hr
    · cases he; exact ⟨hw, hm⟩
    · cases he
  · split at h <;> cases h

/-- A buffer classified as a frame opens with a candidate's. -/
theorem classify_frame {c : Config} {b : List Byte} {V : List Variant} {v : Variant}
    (h : classify c b V = .frame v) : v ∈ V ∧ frameMatch c v b := by
  unfold classify at h
  split at h
  · rename_i r hr
    subst h
    obtain ⟨w, hw, ⟨he, _⟩ | ⟨he, hm⟩⟩ := firstMatch_spec hr
    · cases he
    · cases he; exact ⟨hw, hm⟩
  · split at h <;> cases h

/-- A buffer classified as Pending is pending for a candidate and matches none. -/
theorem classify_pending {c : Config} {b : List Byte} {V : List Variant} (h : classify c b V = .pending) :
    ∃ v ∈ V, hsPending v b ∨ framePending c v b := by
  unfold classify at h
  split at h
  · rename_i r hr
    subst h
    obtain ⟨w, _, ⟨he, _⟩ | ⟨he, _⟩⟩ := firstMatch_spec hr <;> cases he
  · split at h
    · rename_i hv
      obtain ⟨v, hm, hp⟩ := List.any_eq_true.1 hv
      exact ⟨v, hm, by simpa using hp⟩
    · cases h

end Sys2Proof.Machine
end

