-- ==== Sys2Proof/Machine/Telemetry.lean ====
section
/-! DEFINITION. The Telemetry Decoder at the block's boundary (44_telemetry_boundary.md). It is outside the block (R4,
R230): nothing here is state of the block and no instruction calls it. The snapshot of a link is what the decoder makes
of the link's elements of `frame_out`, in order (R230, R242; log 21). -/

namespace Sys2Proof.Machine

open Sys2Proof

/-- The roll codes' meanings (R235). -/
inductive Roll where
  | stop
  | reverse
  | forward
  | unknown
deriving DecidableEq, Repr, Inhabited

/-- The snapshot's fields with the types of R243: `current` and `power` are two's complement, the temperatures hold
-55 to 200 and so more than the source's i8 (C13, U17), `speed` is the speed-proxy, for which no type is stated, and
`odoAt` is the odometer's last-update timestamp. -/
structure Telemetry where
  rpm : BitVec 16
  gear : BitVec 8
  roll : Roll
  errBits : BitVec 16
  voltage : BitVec 16
  current : BitVec 16
  power : BitVec 16
  controllerTemp : Int
  motorTemp : Int
  odometer : BitVec 32
  speed : Nat
  odoAt : Nat
deriving DecidableEq, Repr

/-- Zero-initialised; a raw roll of 0 is Stop (R242, R243). -/
def Telemetry.zero : Telemetry where
  rpm := 0
  gear := 0
  roll := .stop
  errBits := 0
  voltage := 0
  current := 0
  power := 0
  controllerTemp := 0
  motorTemp := 0
  odometer := 0
  speed := 0
  odoAt := 0

/-- An unsigned field of `w` bits set to a number; outside its range not stated (U6, N27; log 22). -/
def fitUnsigned (w n : Nat) : BitVec w := if n < 2 ^ w then BitVec.ofNat w n else Config.outOfRange w n

/-- A signed field of `w` bits set to a number; outside its range not stated (U6, N27; log 22). -/
def fitSigned (w : Nat) (n : Int) : BitVec w :=
  if -2 ^ w ≤ 2 * n ∧ 2 * n < 2 ^ w then BitVec.ofInt w n else Config.outOfRange w n

/-- R233: truncating division (D39). -/
def rpmOf (raw : Nat) : Nat := raw / 4

/-- R234. -/
def gearOf (raw : Nat) : Nat := raw &&& 0x03

/-- R235. -/
def rollOf (raw : Nat) : Roll :=
  if raw = 0x00 then .stop else if raw = 0x01 then .reverse else if raw = 0x03 then .forward else .unknown

/-- R237: arithmetic shift of the signed raw value, then times 10 (D39). -/
def currentOf (raw : Int) : Int := (raw >>> 2) * 10

/-- R237: `voltage × current / 100` on unbounded integers (U6). Exact where 100 divides the product, else one of the two
integers next to the quotient, neither of which has the sign opposite to the current's; which of the two is not stated
(log 22). -/
def powerOf (voltage : Nat) (current : Int) : Int :=
  let p : Int := (voltage : Int) * current
  p / 100 + (if p % 100 ≠ 0 ∧ Config.powerRoundsUp p then 1 else 0)

/-- R238: up to 200 unsigned, above it a signed byte. -/
def tempOf (raw : Byte) : Int := if raw.toNat ≤ 200 then (raw.toNat : Int) else (raw.toNat : Int) - 256

/-- One decoded frame's effect on the snapshot, by function id (R232, R236 to R240). DESIGN CHOICE (log 22): the power
is computed from the voltage and the current that the snapshot's fields then hold, so where one of them did not fit its
field, from the free value there; whether R237 means that value or the unbounded one is not stated (U6, N27). Where
both fit, the two are the same. DESIGN CHOICE (log 22): the error bits a controller reports stay in the
snapshot, joined to the held ones by bitwise or (R236, D39), and no event of `err_out` comes of them; whether they also
reach the error callback is not stated (N8). -/
def Telemetry.update (t : Telemetry) (r : RawFields) : Telemetry :=
  if r.fid = 0x00 then
    { t with
      rpm := fitUnsigned 16 (rpmOf r.rpm)
      gear := fitUnsigned 8 (gearOf r.gear)
      roll := rollOf r.roll
      errBits := t.errBits ||| fitUnsigned 16 r.errBits }
  else if r.fid = 0x01 then
    let v := fitUnsigned 16 r.voltage
    let i := fitSigned 16 (currentOf r.current)
    { t with voltage := v, current := i, power := fitSigned 16 (powerOf v.toNat i.toInt) }
  else if r.fid = 0x04 then { t with controllerTemp := tempOf r.temp }
  else if r.fid = 0x0D then { t with motorTemp := tempOf r.temp }
  else t

/-- What R241 adds to the odometer: `speed × elapsed_ms / 3_600_000`; the rounding is not stated (log 22). -/
def accrued (speed elapsedMs : Nat) : Nat :=
  let d := speed * elapsedMs
  d / 3600000 + (if d % 3600000 ≠ 0 ∧ Config.accrualRoundsUp d then 1 else 0)

/-- One accrual of the odometer at `now` (R241): the speed-proxy from the RPM, and the distance since the previous
accrual. R241 lets the Decoder produce it or leaves it to the consumer. Here it is an operation of the consumer, and
no frame runs it (log 22). -/
def Telemetry.accrue (c : Config) (now : Nat) (t : Telemetry) : Telemetry :=
  let v := Config.speedOf t.rpm
  { t with
    speed := v
    odometer := fitUnsigned 32 (t.odometer.toNat + accrued v (elapsed c now t.odoAt))
    odoAt := now }

/-- The snapshot after a sequence of delivered frames of link `l`, under an extraction function (R231). -/
def telemetryWith (fields : Variant → List Byte → RawFields) (l : Nat) : Telemetry → List FrameEvent → Telemetry
  | t, [] => t
  | t, e :: es => telemetryWith fields l (if e.link = l then t.update (fields e.variant e.frame) else t) es

/-- `telemetry(link)` (R244): a read-only view. For a link the block does not have it is refused, as none: R244 states
no result there, and U4 refuses such an index (log 21). -/
def State.telemetry (s : State) (l : Nat) : Option Telemetry :=
  (s.link? l).map fun _ => telemetryWith Config.fields l Telemetry.zero s.frameOut

end Sys2Proof.Machine
end

