-- ==== Sys2Proof/Laws/Telemetry.lean ====
section
/-! SUPPORT. What the decoder's conversions with an open rounding or range can give, said once. -/

namespace Sys2Proof.Machine

open Sys2Proof

/-- Whichever way it is rounded, the power is less than one away from the quotient of R237. -/
theorem powerOf_near (v : Nat) (i : Int) : -100 < 100 * powerOf v i - v * i ∧ 100 * powerOf v i - v * i < 100 := by
  simp only [powerOf]
  generalize (v : Int) * i = p
  split <;> omega

/-- The power never has the sign opposite to the current's (R237). -/
theorem powerOf_sign (v : Nat) (i : Int) : (0 ≤ i → 0 ≤ powerOf v i) ∧ (i ≤ 0 → powerOf v i ≤ 0) := by
  have h1 : 0 ≤ i → 0 ≤ (v : Int) * i := Int.mul_nonneg (Int.natCast_nonneg v)
  have h2 : i ≤ 0 → (v : Int) * i ≤ 0 := Int.mul_nonpos_of_nonneg_of_nonpos (Int.natCast_nonneg v)
  simp only [powerOf]
  generalize (v : Int) * i = p at *
  constructor <;> intro h
  · have := h1 h; split <;> omega
  · have := h2 h; split <;> omega

/-- An unsigned field holds a number of its range exactly. -/
theorem fitUnsigned_toNat {w n : Nat} (h : n < 2 ^ w) : (fitUnsigned w n).toNat = n := by
  simp [fitUnsigned, h, Nat.mod_eq_of_lt h]

/-- A frame with another function id changes nothing (R240). -/
theorem Telemetry.update_ignored (t : Telemetry) {r : RawFields} (h0 : r.fid ≠ 0x00) (h1 : r.fid ≠ 0x01)
    (h4 : r.fid ≠ 0x04) (hD : r.fid ≠ 0x0D) : t.update r = t := by
  unfold Telemetry.update; rw [if_neg h0, if_neg h1, if_neg h4, if_neg hD]

/-- No frame touches the odometer, the speed-proxy or the timestamp (R232, R237 to R241). -/
theorem Telemetry.update_odometer (t : Telemetry) (r : RawFields) :
    (t.update r).odometer = t.odometer ∧ (t.update r).speed = t.speed ∧ (t.update r).odoAt = t.odoAt := by
  unfold Telemetry.update
  (repeat' split) <;> exact ⟨rfl, rfl, rfl⟩

end Sys2Proof.Machine
end

