-- ==== Sys2Proof/Laws/Tick.lean ====
section
/-! SUPPORT. What one iteration of Phase B and one Phase A can do, and the lengths the classification guarantees. -/

namespace Sys2Proof.Machine

open Sys2Proof

/-! ## Descriptors and lengths -/

@[simp] theorem descriptor_frameLen (c : Config) (v : Variant) : (descriptor c v).frameLen = 16 := by cases v <;> rfl
@[simp] theorem descriptor_start (c : Config) (v : Variant) : (descriptor c v).start = 0xAA := by cases v <;> rfl
@[simp] theorem descriptor_pol (c : Config) (v : Variant) : (descriptor c v).pol = decide (v = .modern) := by
  cases v <;> rfl

theorem hsreq_length_pos (v : Variant) : 1 ≤ (hsreq v).length := by cases v <;> decide
theorem hsreq_length_le (v : Variant) : (hsreq v).length ≤ 16 := by cases v <;> decide

theorem frameMatch_length {c : Config} {v : Variant} {b : List Byte} (h : frameMatch c v b = true) :
    16 ≤ b.length := by
  unfold frameMatch at h
  simp only [descriptor_frameLen, Bool.and_eq_true, decide_eq_true_eq] at h
  exact h.1.1.1

theorem hsMatch_length {v : Variant} {b : List Byte} (h : hsMatch v b = true) : (hsreq v).length ≤ b.length := by
  unfold hsMatch at h
  simp only [Bool.and_eq_true, decide_eq_true_eq] at h
  exact h.1

theorem resyncScan_ge (c : Config) (V : List Variant) (xs : List Byte) : ∀ k, k ≤ resyncScan c V xs k := by
  induction xs with
  | nil => intro k; exact Nat.le_refl _
  | cons x xs ih =>
    intro k; unfold resyncScan; split
    · exact Nat.le_refl _
    · exact Nat.le_trans (Nat.le_succ k) (ih _)

/-- A non-empty sequence loses at least its first byte (R157). -/
theorem resync_pos {c : Config} {V : List Variant} {b : List Byte} (h : b ≠ []) : 1 ≤ resync c b V := by
  cases b with
  | nil => exact absurd rfl h
  | cons x xs => exact resyncScan_ge c V xs 1

/-! ## The frame-accept action -/

@[simp] theorem t13_buf (c : Config) (now : Nat) (L : Link) : (t13 c now L).buf = L.buf := by
  unfold t13; split <;> simp

theorem t13_cs (c : Config) (now : Nat) {L : Link} (h : L.cs ≠ .error) : (t13 c now L).cs ≠ .error := by
  unfold t13; split <;> simp [h]

@[simp] theorem accept_buf (c : Config) (now : Nat) (v : Variant) (w : Work) :
    (accept c now v w).link.buf = w.link.buf.drop 16 := by
  simp [accept, Work.upd, Work.deliver, consume, frameLen]

theorem accept_cs (c : Config) (now : Nat) (v : Variant) {w : Work} (h : w.link.cs ≠ .error) :
    (accept c now v w).link.cs ≠ .error := by
  simp only [accept, Work.upd, Work.deliver]
  exact t13_cs _ _ h

@[simp] theorem accept_errs (c : Config) (now : Nat) (v : Variant) (w : Work) :
    (accept c now v w).errs = w.errs := rfl
@[simp] theorem accept_frames (c : Config) (now : Nat) (v : Variant) (w : Work) :
    (accept c now v w).frames = w.frames ++ [(v, w.link.buf.take 16)] := by
  simp [accept, Work.upd, Work.deliver, memRead, frameLen]
@[simp] theorem accept_discarded (c : Config) (now : Nat) (v : Variant) (w : Work) :
    (accept c now v w).discarded = w.discarded := rfl

/-! ## One iteration of Phase B -/

/-- Phase B raises no event (R292). -/
theorem phaseBStep_errs (c : Config) (now : Nat) (w : Work) (k : Class) :
    (phaseBStep c now w k).1.errs = w.errs := by
  unfold phaseBStep
  split <;> (try split) <;> simp [Work.upd, actT4, actT6, actT7]

/-- An iteration ends the loop only at Pending, and then changes nothing (R205). -/
theorem phaseBStep_stops {c : Config} {now : Nat} {w w' : Work}
    (h : phaseBStep c now w (classOf c w.link) = (w', false)) (hc : w.link.cs ≠ .error) :
    w' = w ∧ classOf c w.link = .pending := by
  unfold phaseBStep at h
  split at h
  · rename_i hk; cases h; exact ⟨rfl, hk⟩
  · split at h <;> cases h; exact absurd ‹_› hc
  · split at h <;> cases h
  · split at h <;> cases h

/-- What R214 counts: twice the bytes held, and one more where a demotion is still possible. -/
def phaseBMeasure (w : Work) : Nat := 2 * w.link.buf.length + if w.link.cs = .disconnected then 0 else 1

/-- An iteration that goes on consumes a byte or demotes, and does not enter Error (R214). -/
theorem phaseBStep_continues {c : Config} {now : Nat} {w w' : Work}
    (h : phaseBStep c now w (classOf c w.link) = (w', true)) (hb : w.link.buf ≠ []) (hc : w.link.cs ≠ .error) :
    phaseBMeasure w' < phaseBMeasure w ∧ w'.link.cs ≠ .error := by
  have hpos := List.length_pos_iff.2 hb
  unfold phaseBStep at h
  split at h
  · cases h
  · rename_i v hk
    have hm := hsMatch_length (classify_handshake hk).2
    have hp := hsreq_length_pos v
    split at h <;> cases h <;> simp_all [Work.upd, phaseBMeasure, actT5, actRepeat, consume] <;> omega
  · rename_i v hk
    have hm := frameMatch_length (classify_frame hk).2
    have h1 : ∀ w1 : Work, w1.link.buf = w.link.buf → phaseBMeasure (accept c now v w1) < phaseBMeasure w := by
      intro w1 he; unfold phaseBMeasure; rw [accept_buf, he]; simp; split <;> split <;> omega
    split at h <;> cases h
    · exact ⟨h1 _ (by simp [Work.upd]), accept_cs _ _ _ (by simp [Work.upd])⟩
    · exact ⟨h1 _ (by simp [Work.upd]), accept_cs _ _ _ (by simp [Work.upd])⟩
    · exact ⟨h1 _ rfl, accept_cs _ _ _ hc⟩
  · split at h <;> cases h
    · rename_i hcs
      have := resync_pos (c := c) (V := candidates c w.link.sel) hb
      simp [actT6, phaseBMeasure, consume, hcs, resyncOf]; omega
    · simp_all [Work.upd, phaseBMeasure]

/-! ## Phase A -/

/-- Phase A delivers nothing. -/
theorem phaseA_frames (c : Config) (now : Nat) (w : Work) : (phaseA c now w).1.frames = w.frames := by
  unfold phaseA
  split <;> (try split) <;> (try split) <;> rfl

/-- Phase A leaves the buffer as it is. -/
theorem phaseA_buf (c : Config) (now : Nat) (w : Work) : (phaseA c now w).1.link.buf = w.link.buf := by
  unfold phaseA
  split <;> (try split) <;> (try split) <;>
    simp [Work.upd, leaveError, takeMismatch, takeLinkLost, Work.raise, ruleT9]
  split <;> simp

/-- A tick that goes on to Phase B does so outside Error. -/
theorem phaseA_cs {c : Config} {now : Nat} {w w' : Work} (h : phaseA c now w = (w', false)) :
    w'.link.cs ≠ .error := by
  unfold phaseA at h
  split at h <;> (try split at h) <;> (try split at h) <;> (try cases h) <;>
    simp_all [Work.upd, leaveError, takeLinkLost, Work.raise, ruleT9]
  split <;> simp_all

end Sys2Proof.Machine
end

