-- ==== Sys2Proof/Machine/Trace.lean ====
section
/-! DEFINITION. The trace notation (R110) and its pseudo-operations (R111), as requests of the environment. -/

namespace Sys2Proof.Machine

open Sys2Proof

/-- `@now RESET`. -/
def reqReset (now : Nat) : Request := { now := now, link := tableLink, word := [0] }

/-- `@now INGEST l : bytes`. -/
def reqIngest (now : Nat) (l : Nat) (bytes : List Byte) : Request := { now := now, link := l, word := 1 :: bytes }

/-- `@now PROCESS`. -/
def reqProcess (now : Nat) : Request := { now := now, link := tableLink, word := [2] }

/-- `@now TX_POP l`. -/
def reqTxPop (now : Nat) (l : Nat) : Request := { now := now, link := l, word := [3] }

/-- `@now READ_STATUS l`. -/
def reqReadStatus (now : Nat) (l : Nat) : Request := { now := now, link := l, word := [4] }

/-- `RX l byte`: `INGEST l : byte` (R111). -/
def reqRx (now : Nat) (l : Nat) (b : Byte) : Request := reqIngest now l [b]

/-- `TICKS t0 step count` (R111). -/
def ticks (t0 step : Nat) : Nat → List Request
  | 0 => []
  | n + 1 => reqProcess t0 :: ticks (t0 + step) step n

/-- `TX_DRAIN l`: TX_POP repeated until it returns none (R111), at most `fuel` times; the bytes popped and the state
left. -/
def drain (l : Nat) : Nat → State → List Byte × State
  | 0, s => ([], s)
  | fuel + 1, s =>
    match exec (.txPop l) s with
    | .next t =>
      match t.result with
      | .popped (.some b) => let r := drain l fuel t; (b :: r.1, r.2)
      | _ => ([], t)
    | _ => ([], s)

/-- `TX_DRAIN l` with room for every byte of the queue and the final empty pop. -/
def txDrain (l : Nat) (s : State) : List Byte × State :=
  match s.link? l with
  | .none => ([], s)
  | .some L => drain l (L.txq.length + 1) s

end Sys2Proof.Machine
end

