-- ==== Sys2Proof/Tests/Slice0.lean ====
section
/-! SUPPORT. Tests: ill-formed terms, words written out from 30_encoding.md, single steps whose expected results are
those of 95_test_vectors.md (cited as V<section> or P<program>) or of a rule, and for every statement with hypotheses a
witness that meets them together. -/

namespace Sys2Proof.Tests

open Sys2Proof Sys2Proof.Machine

/-! ## The frames and literals of 95_test_vectors.md -/

def fa : List Byte := [0xAA, 0x80, 0x20, 0x03, 0x00, 0x03, 0, 0, 0, 0, 0, 0, 0, 0, 0x58, 0x63]
def f1 : List Byte := [0xAA, 0x01, 0xB0, 0x04, 0x28, 0, 0, 0, 0, 0, 0, 0, 0, 0, 0x01, 0x87]
def f2 : List Byte := [0xAA, 0x00, 0x20, 0x03, 0x00, 0x03, 0, 0, 0, 0, 0, 0, 0, 0, 0x00, 0xD0]
def bad : List Byte := [0xAA, 0x00, 0x20, 0x03, 0x00, 0x13, 0, 0, 0, 0, 0, 0, 0, 0, 0x00, 0xD0]
def hsl : List Byte :=
  [0x41, 0x54, 0x2B, 0x50, 0x41, 0x53, 0x53, 0x3D, 0x32, 0x39, 0x36, 0x38, 0x38, 0x37, 0x38, 0x31]
def hsm : List Byte := [0x41, 0x54, 0x2B, 0x56, 0x45, 0x52, 0x53, 0x49, 0x4F, 0x4E]
def payload1 : List Byte := [0xB0, 0x04, 0x28, 0, 0, 0, 0, 0, 0, 0, 0, 0]
def payloadA : List Byte := [0x20, 0x03, 0x00, 0x03, 0, 0, 0, 0, 0, 0, 0, 0]

/-! ## Small states -/

def cfg0 : Config := Config.default

/-- Two links at a time, the first as given, the second as reset left it. -/
def mk (now : Nat) (L : Link) : State := { State.reset with now := now, links := [L, Link.reset] }

/-- A link in a state, with a selection and a buffer. -/
def lnk (cs : ConnState) (sel : Option Variant) (buf : List Byte) : Link :=
  { Link.reset with cs := cs, sel := sel, buf := buf }

/-- The state after, where there is one. -/
def after (o : Host.Outcome State Fault Refusal) : Option State :=
  match o with
  | .next t => .some t
  | _ => .none

/-- The first link after, where there is one. -/
def first (o : Host.Outcome State Fault Refusal) : Option Link := (after o).bind (·.link? 1)

/-- The value returned. -/
def value (o : Host.Outcome State Fault Refusal) : Option Result := (after o).map State.result

/-! ## WellFormed refuses ill-formed terms -/

theorem test_wf_link_zero : Instr.wellFormed cfg0 (.txPop 0) = false := by decide
theorem test_wf_link_three : Instr.wellFormed cfg0 (.readStatus 3) = false := by decide
theorem test_wf_payload_short : Instr.wellFormed cfg0 (.legacyFrame 1 0 []) = false := by decide
theorem test_wf_payload_long : Instr.wellFormed cfg0 (.modernFrame 1 0 fa) = false := by decide
theorem test_wf_length_one : Instr.wellFormed cfg0 (.crcLegacy [0, 0] 1) = false := by decide
theorem test_wf_length_beyond : Instr.wellFormed cfg0 (.ckValid .modern [0, 0] 3) = false := by decide
theorem test_wf_no_candidates : Instr.wellFormed cfg0 (.classify [0] []) = false := by decide
theorem test_wf_swapped_candidates : Instr.wellFormed cfg0 (.resync [0] [.modern, .legacy]) = false := by decide
theorem test_wf_empty_sequence : Instr.wellFormed cfg0 (.classify [] [.legacy]) = false := by decide

/-! ## Decoding: every encodable constructor's word, written out (R93 to R107) -/

theorem test_decode_legacyHsReq : decode cfg0 1 hsl = .ok (.legacyHsReq 1) := by rfl
theorem test_decode_modernHsReq : decode cfg0 2 hsm = .ok (.modernHsReq 2) := by rfl
theorem test_decode_legacyFrame : decode cfg0 1 f1 = .ok (.legacyFrame 1 1 payload1) := by rfl
theorem test_decode_modernFrame : decode cfg0 1 fa = .ok (.modernFrame 1 0 payloadA) := by
  decide +kernel
theorem test_decode_modernFrame_tag : decode cfg0 1
    [0xAA, 0xF1, 0x27, 0xD9, 0x77, 0xAE, 0xA7, 0x8F, 0xFB, 0x45, 0x18, 0xC0, 0x8A, 0x58, 0x07, 0x70] =
    .ok (.modernFrame 1 0x71 [0x27, 0xD9, 0x77, 0xAE, 0xA7, 0x8F, 0xFB, 0x45, 0x18, 0xC0, 0x8A, 0x58]) := by
  decide +kernel
theorem test_decode_legacyHsRsp : decode cfg0 1
    [0x2B, 0x50, 0x41, 0x53, 0x53, 0x3D, 0x4F, 0x4E, 0x4E, 0x44, 0x4F, 0x4E, 0x4B, 0x45] =
    .ok (.legacyHsRsp 1) := by rfl
theorem test_decode_legacyPeriodicReq : decode cfg0 1 [0xAA, 0x13, 0xEC, 0x07, 0x09, 0x6F, 0x28, 0xD7] =
    .ok (.legacyPeriodicReq 1) := by rfl
theorem test_decode_modernHsRsp : decode cfg0 1 [0xAA, 0x13, 0xEC, 0x07, 0x01, 0xF1, 0xA2, 0x5D] =
    .ok (.modernHsRsp 1) := by rfl
theorem test_decode_modernPeriodicReq : decode cfg0 1 [] = .ok (.modernPeriodicReq 1) := by rfl
theorem test_decode_reset : decode cfg0 1 [0x00] = .ok .reset := by rfl
theorem test_decode_ingest : decode cfg0 2 [0x01, 0x55, 0x66] = .ok (.ingest 2 [0x55, 0x66]) := by rfl
theorem test_decode_process : decode cfg0 1 [0x02] = .ok .process := by rfl
theorem test_decode_txPop : decode cfg0 2 [0x03] = .ok (.txPop 2) := by rfl
theorem test_decode_readStatus : decode cfg0 1 [0x04] = .ok (.readStatus 1) := by rfl

theorem test_decode_reserved : decode cfg0 1 [0x05] = .error (.reservedOp 5) := by rfl
theorem test_decode_trailing : decode cfg0 1 [0x02, 0x00] = .error (.badOperand 2) := by rfl
theorem test_decode_bad_checksum : decode cfg0 1 bad = .error .noChecksum := by rfl
theorem test_decode_cut_literal : decode cfg0 1 (hsl.take 15) = .error (.noMessage 0x41) := by rfl
theorem test_decode_switched_order : decode { cfg0 with legacyCkBigEndian := false } 1 f1 = .error .noChecksum := by rfl
theorem test_encode_internal : encode cfg0 (.processLink 1) = none := by rfl

/-- No two wire rows of the table fit one word: of two patterns of one length, some bit is compared by both and
differs. -/
theorem test_patterns_disjoint : wirePatterns.Pairwise (fun p q => p.bits.length ≠ q.bits.length ∨
    List.zipWith (· &&& ·) p.bits q.mask ≠ List.zipWith (· &&& ·) q.bits p.mask) := by decide

theorem test_tableWord_process : decodeTableWord 3 2 = some .process := by rfl
theorem test_tableWord_literal : decodeTableWord 64 0xD7286F0907EC13AA = some (.legacyPeriodicReq 1) := by rfl
theorem test_fetchWord : after (step (State.reset.withFetchWord 8 2)) = some State.reset := by decide

/-! ## The CRC Engine (V3.2, V3.3) -/

theorem test_crcLegacy : value (exec (.crcLegacy [0x31, 0x32, 0x33, 0x34, 0x35, 0x36, 0x37, 0x38, 0x39, 0, 0] 11)
    State.reset) = some (.word 0x01DD) := by decide
theorem test_crcLegacy_wraps : crcLegacy (List.replicate 300 0xFF) 300 = 0x28D6 := by decide +kernel
theorem test_crcModern : value (exec (.crcModern [0x31, 0x32, 0x33, 0x34, 0x35, 0x36, 0x37, 0x38, 0x39, 0, 0] 11)
    State.reset) = some (.word 0xDE7B) := by decide +kernel
theorem test_crcModern_seed : value (exec (.crcModern [1, 1] 2) State.reset) = some (.word 0x7F3C) := by decide
theorem test_ckField_modern : value (exec (.ckField .modern fa 16) State.reset) = some (.word 0x6358) := by decide
theorem test_ckField_legacy : value (exec (.ckField .legacy fa 16) State.reset) = some (.word 0x5863) := by decide
theorem test_ckValid_modern : value (exec (.ckValid .modern fa 16) State.reset) = some (.flag true) := by
  decide +kernel
theorem test_ckValid_bad : value (exec (.ckValid .legacy bad 16) State.reset) = some (.flag false) := by decide

/-! ## The Frame Validator (V4, V5) -/

theorem test_hsMatch : value (exec (.hsMatch .modern (hsm ++ [0xAA])) State.reset) = some (.flag true) := by decide
theorem test_hsMatch_short : value (exec (.hsMatch .legacy (hsl.take 15)) State.reset) = some (.flag false) := by
  decide
theorem test_frameMatch : value (exec (.frameMatch .legacy f1) State.reset) = some (.flag true) := by decide
theorem test_frameMatch_polarity : value (exec (.frameMatch .modern f1) State.reset) = some (.flag false) := by decide
theorem test_hsPending : value (exec (.hsPending .legacy (hsl.take 15)) State.reset) = some (.flag true) := by decide
theorem test_hsPending_whole : value (exec (.hsPending .legacy hsl) State.reset) = some (.flag false) := by decide
theorem test_framePending_one : value (exec (.framePending .modern [0xAA]) State.reset) = some (.flag true) := by
  decide
theorem test_framePending_polarity :
    value (exec (.framePending .modern [0xAA, 0x05]) State.reset) = some (.flag false) := by decide
theorem test_classify_rows : classify cfg0 [0x41, 0x54, 0x2B] [.legacy, .modern] = .pending ∧
    classify cfg0 [0x41, 0x54, 0x2B, 0x50] [.modern] = .noMatch ∧
    classify cfg0 [0xAA, 0x85] [.legacy] = .noMatch ∧ classify cfg0 [0x55] [.legacy, .modern] = .noMatch ∧
    classify cfg0 (f1 ++ [1]) [.legacy, .modern] = .frame .legacy ∧
    classify cfg0 hsl [.legacy, .modern] = .handshake .legacy := by decide
theorem test_classify : value (exec (.classify bad [.legacy, .modern]) State.reset) = some (.cls .noMatch) := by
  decide +kernel
theorem test_resync_rows : resync cfg0 [0, 1, 2] [.legacy, .modern] = 3 ∧
    resync cfg0 [0, 0xAA, 0x80] [.legacy, .modern] = 1 ∧ resync cfg0 [0xAA, 0x85, 0xAA, 0x05] [.legacy] = 2 := by
  decide
theorem test_resync : value (exec (.resync ([0, 0xFF, 0x41] ++ f1) [.legacy, .modern]) State.reset) =
    some (.count 3) := by decide +kernel

/-- V6: the single-bit corruption of a modern frame that is a legacy frame. -/
theorem test_collision : classify cfg0
      [0xAA, 0x71, 0x27, 0xD9, 0x77, 0xAE, 0xA7, 0x8F, 0xFB, 0x45, 0x18, 0xC0, 0x8A, 0x58, 0x07, 0x70]
      [.legacy, .modern] = .frame .legacy := by decide +kernel

/-! ## Selection and the state machine -/

theorem test_select : (first (exec (.select 1 .modern) (mk 0 Link.reset))).map Link.sel = some (some .modern) := by
  decide
theorem test_select_sticky : (first (exec (.select 1 .modern) (mk 0 (lnk .pairing (some .legacy) [])))).map Link.sel =
    some (some .legacy) := by decide
theorem test_enter_pairing : first (exec (.enter 1 .pairing) (mk 7 (lnk .disconnected (some .modern) []))) =
    some { lnk .pairing (some .modern) [] with
      tEntry := 7, txq := [0xAA, 0x13, 0xEC, 0x07, 0x01, 0xF1, 0xA2, 0x5D] } := by decide
theorem test_demote_saturates :
      (first (exec (.demote 1) (mk 0 { lnk .pairing (some .modern) fa with dcc := 255 }))).map
    Link.dcc = some 255 := by decide
/-- P4, at 960. -/
theorem test_t1 : first (exec (.t1ErrorToDisconnected 1) (mk 960 { lnk .error none [] with dcc := 31 })) =
    some { lnk .disconnected none [] with tEntry := 960 } := by decide
/-- P3, at 635. -/
theorem test_t2 : first (exec (.t2PeriodicToParse 1)
      (mk 635 { lnk .streamingPeriodic (some .modern) [] with pkt := 20 })) =
    some { lnk .streamingParse (some .modern) [] with tEntry := 635 } := by decide
/-- P4, at 930, and with the counter at its limit. -/
theorem test_t3 : ((after (exec (.t3DisconnectedToError 1) (mk 930 { Link.reset with dcc := 31 }))).map State.errOut =
      some [{ link := 1, kind := .protocolMismatch, raw := 0 }]) ∧
    first (exec (.t3DisconnectedToError 1) (mk 930 { Link.reset with dcc := 30 })) =
      some { Link.reset with dcc := 30 } := by decide
/-- P6, at 1. -/
theorem test_t4 : first (exec (.t4DisconnectedFrame 1) (mk 1 (lnk .disconnected none fa))) =
    some { lnk .streamingParse (some .modern) [] with tEntry := 1, pkt := 1 } := by decide +kernel
/-- P1, at 105. -/
theorem test_t5 : first (exec (.t5DisconnectedHandshake 1) (mk 105 (lnk .disconnected none hsm))) =
    some { lnk .pairing (some .modern) [] with
      tEntry := 105, txq := [0xAA, 0x13, 0xEC, 0x07, 0x01, 0xF1, 0xA2, 0x5D] } := by decide
/-- P2, at 12: the three stray bytes go. -/
theorem test_t6 : (first (exec (.t6DisconnectedResync 1)
      (mk 12 (lnk .disconnected none ([0, 0xFF, 0x41] ++ f1))))).map
    Link.buf = some f1 := by decide +kernel
/-- P6, at 21. -/
theorem test_t7 : first (exec (.t7PairingFrame 1)
      (mk 21 { lnk .pairing (some .legacy) f1 with dcc := 1, pkt := 9 })) =
    some { lnk .streamingParse (some .legacy) [] with tEntry := 21, pkt := 1 } := by decide +kernel
/-- R197: nothing is consumed. -/
theorem test_t8 : first (exec (.t8PairingNomatch 1) (mk 5 (lnk .pairing (some .modern) [0x55]))) =
    some { lnk .disconnected none [0x55] with tEntry := 5, dcc := 1 } := by decide
/-- P1 at 3105 and 3106, P9 across the wrap of `now`. -/
theorem test_t9 : (first (exec (.t9PairingTimeout 1)
      (mk 3105 { lnk .pairing (some .modern) [] with tEntry := 105 }))).map
      Link.cs = some .pairing ∧
    (first (exec (.t9PairingTimeout 1) (mk 3106 { lnk .pairing (some .modern) [] with tEntry := 105 }))).map Link.cs =
      some .disconnected := by decide
theorem test_t9_wraps :
    (first (exec (.t9PairingTimeout 1)
      (mk 2995 { lnk .pairing (some .modern) [] with tEntry := 4294967291 }))).map Link.cs =
      some .pairing ∧
    (first (exec (.t9PairingTimeout 1)
      (mk 2996 { lnk .pairing (some .modern) [] with tEntry := 4294967291 }))).map Link.cs =
      some .disconnected := by decide
/-- With a time input of 8 bits the wrap comes at 256 (R6, R13). -/
theorem test_elapsed_narrow : elapsed { cfg0 with timeW := 8 } 4 250 = 10 ∧
    (State.accepting { State.reset with cfg := { cfg0 with timeW := 8 } } (reqProcess 260) []).now = 4 := by decide
/-- P3, at 1100 and 1101. -/
theorem test_t10 : (first (exec (.t10LinkLost 1)
      (mk 1100 { lnk .streamingParse (some .modern) [] with tLast := 600 }))).map
      Link.cs = some .streamingParse ∧
    (after (exec (.t10LinkLost 1)
      (mk 1101 { lnk .streamingParse (some .modern) [] with tLast := 600 }))).map State.errOut =
      some [{ link := 1, kind := .linkLost, raw := 0 }] := by decide
/-- P10, at 582: the legacy periodic request by time. -/
theorem test_t11 : first (exec (.t11StreamTime 1)
      (mk 582 { lnk .streamingParse (some .legacy) [] with tEntry := 12, tLast := 580, pkt := 19 })) =
    some { lnk .streamingPeriodic (some .legacy) [] with
      tEntry := 582, tLast := 580, pkt := 19, txq := [0xAA, 0x13, 0xEC, 0x07, 0x09, 0x6F, 0x28, 0xD7] } := by decide
/-- P6, at 31. -/
theorem test_t12 : first (exec (.t12StreamingDemote 1)
      (mk 31 { lnk .streamingParse (some .legacy) hsl with pkt := 1 })) =
    some { lnk .disconnected none hsl with tEntry := 31, dcc := 1, pkt := 1 } := by decide
/-- P10, the packet threshold 3, and the threshold 0 that disables it. -/
theorem test_t13 : first (exec (.t13StreamCount 1)
      { mk 1 { lnk .streamingParse (some .legacy) [] with pkt := 3 } with cfg := { cfg0 with pktThreshLegacy := 3 } }) =
    some { lnk .streamingPeriodic (some .legacy) [] with
      tEntry := 1, pkt := 3, txq := [0xAA, 0x13, 0xEC, 0x07, 0x09, 0x6F, 0x28, 0xD7] } := by decide
theorem test_t13_disabled : first (exec (.t13StreamCount 1)
      (mk 1 { lnk .streamingParse (some .legacy) [] with pkt := 3 })) =
    some { lnk .streamingParse (some .legacy) [] with pkt := 3 } := by decide
/-- P10, the repeated handshake. -/
theorem test_pairingHsRepeat : first (exec (.pairingHsRepeat 1)
      (mk 11 { lnk .pairing (some .modern) hsm with tEntry := 1 })) =
    some { lnk .pairing (some .modern) [] with tEntry := 1 } := by decide
/-- P3, at 65: a further frame in StreamingParse. -/
theorem test_frameAccept : after (exec (.frameAccept 1)
      (mk 65 { lnk .streamingParse (some .legacy) (f2 ++ [1]) with pkt := 1, dcc := 3 })) =
    some { mk 65 { lnk .streamingParse (some .legacy) [1] with pkt := 2 } with
      frameOut := [{ link := 1, variant := .legacy, frame := f2 }] } := by decide +kernel
theorem test_pendingStop : after (exec (.pendingStop 1) (mk 32 (lnk .streamingParse (some .legacy) (f2.take 7)))) =
    some (mk 32 (lnk .streamingParse (some .legacy) (f2.take 7))) := by decide

/-! ## The Link Manager -/

theorem test_reset : after (exec .reset { mk 3 (lnk .pairing (some .modern) fa) with errOut := [⟨1, .linkLost, 0⟩] }) =
    some { State.reset with now := 3 } := by decide
/-- P5 (S8): cleared at 25, kept at 20. -/
theorem test_ingest_idle :
    (first (exec (.ingest 1 [0x22]) (mk 25 (lnk .disconnected none [0xAA, 0x11, 0x11, 0x11, 0x11])))).map Link.buf =
      some [0x22] ∧
    (first (exec (.ingest 1 [0x22]) (mk 20 (lnk .disconnected none [0xAA, 0x11, 0x11, 0x11, 0x11])))).map
      (fun L => L.buf.length) = some 6 := by decide
/-- P5, a full buffer: nothing stored, one event, `t_last` as it was. -/
theorem test_ingest_full : after (exec (.ingest 1 [1]) (mk 5 (lnk .disconnected none (List.replicate 128 0)))) =
    some { mk 5 (lnk .disconnected none (List.replicate 128 0)) with errOut := [⟨1, .bufferOverflow, 0⟩] } := by
  decide +kernel
/-- P10: a handshake and a frame in one tick. -/
theorem test_process : (after (exec .process (mk 1 (lnk .disconnected none (hsm ++ fa))))).map State.links =
    some [{ lnk .streamingParse (some .modern) [] with
      tEntry := 1, pkt := 1, txq := [0xAA, 0x13, 0xEC, 0x07, 0x01, 0xF1, 0xA2, 0x5D] }, Link.reset] := by decide +kernel
/-- P4, after i = 0: two stray bytes count one failed cycle. -/
theorem test_processLink : first (exec (.processLink 1) (mk 1 (lnk .disconnected none [0x55, 0x66]))) =
    some { Link.reset with dcc := 1 } := by decide
/-- P2, at 22: a bad frame and a good one in one tick. -/
theorem test_processLink_resync : first (exec (.processLink 1)
      (mk 22 { lnk .streamingParse (some .legacy) (bad ++ f2) with tEntry := 12, tLast := 20, pkt := 1 })) =
    some { lnk .streamingParse (some .legacy) [] with tEntry := 22, tLast := 20, pkt := 1 } := by decide +kernel
theorem test_txPop : (after (exec (.txPop 1) (mk 0 { Link.reset with txq := [0xAA, 0x13] }))).map
    (fun t => (t.result, (t.link? 1).map Link.txq)) = some (.popped (some 0xAA), some [0x13]) := by decide
theorem test_txPop_empty : value (exec (.txPop 2) State.reset) = some (.popped none) := by decide
/-- P6, at 11. -/
theorem test_readStatus : value (exec (.readStatus 1)
      (mk 11 { lnk .pairing (some .legacy) [] with dcc := 1, pkt := 1 })) =
    some (.status { cs := 1, sel := 1, len := 0, dcc := 1, pkt := 1 }) := by decide
/-- R93 and R252: an arriving request fills the buffer. -/
theorem test_legacyHsReq : (first (exec (.legacyHsReq 1) (mk 9 Link.reset))).map (fun L => (L.buf, L.tLast)) =
    some (hsl, 9) := by decide
theorem test_modernHsReq : (first (exec (.modernHsReq 1) (mk 9 Link.reset))).map Link.buf = some hsm := by decide
theorem test_legacyFrame : (first (exec (.legacyFrame 1 1 payload1) (mk 9 Link.reset))).map Link.buf = some f1 := by
  decide
theorem test_modernFrame : (first (exec (.modernFrame 1 0 payloadA) (mk 9 Link.reset))).map Link.buf = some fa := by
  decide +kernel
theorem test_legacyHsRsp : (first (exec (.legacyHsRsp 1) (mk 0 { Link.reset with txq := [9] }))).map Link.txq =
    some [9, 0x2B, 0x50, 0x41, 0x53, 0x53, 0x3D, 0x4F, 0x4E, 0x4E, 0x44, 0x4F, 0x4E, 0x4B, 0x45] := by decide
theorem test_legacyPeriodicReq : (first (exec (.legacyPeriodicReq 1) (mk 0 Link.reset))).map Link.txq =
    some [0xAA, 0x13, 0xEC, 0x07, 0x09, 0x6F, 0x28, 0xD7] := by decide
theorem test_modernHsRsp : (first (exec (.modernHsRsp 1) (mk 0 Link.reset))).map Link.txq =
    some [0xAA, 0x13, 0xEC, 0x07, 0x01, 0xF1, 0xA2, 0x5D] := by decide
theorem test_modernPeriodicReq : after (exec (.modernPeriodicReq 1) State.reset) = some State.reset := by decide

/-- R32: a finite queue takes a message that fits exactly; what one without room holds is within its capacity. -/
theorem test_enqueue_fits : enqueue { cfg0 with txqCap := some 9 } [1] legacyPeriodicReqBytes =
    1 :: legacyPeriodicReqBytes ∧ queueOk { cfg0 with txqCap := some 8 } (1 :: legacyPeriodicReqBytes) = false := by
  decide

/-! ## The telemetry boundary (S7, S10, S11) -/

theorem test_telemetry : rpmOf 400 = 100 ∧ rollOf 0x01 = .reverse ∧ rollOf 0x05 = .unknown ∧ currentOf 40 = 100 ∧
    powerOf 1200 100 = 1200 ∧ tempOf 200 = 200 ∧ tempOf 201 = -55 ∧ tempOf 255 = -1 := by decide
/-- R237: the example's frame on a snapshot, and a negative current. -/
theorem test_telemetry_update :
    Telemetry.zero.update { (default : RawFields) with fid := 0x01, voltage := 1200, current := 40 } =
      { Telemetry.zero with voltage := 1200, current := 100, power := 1200 } ∧
    (Telemetry.zero.update
      { (default : RawFields) with fid := 0x01, voltage := 100, current := -40 }).power.toInt = -100 := by decide
/-- R242, R244, U4: a snapshot begins at zero, and a link the block does not have has none. -/
theorem test_telemetry_links : State.reset.telemetry 2 = some Telemetry.zero ∧ State.reset.telemetry 3 = none := by
  decide

/-! ## Witnesses: for every statement with hypotheses, a state and operands that meet them together -/

/-- The first link of a small state is the one it was built from. -/
theorem mk_link (now : Nat) (L : Link) : (mk now L).link? 1 = some L := rfl

theorem witness_DecodeEncodeAgree : (Instr.modernFrame 2 0 payloadA).wellFormed cfg0 = true ∧
    encode cfg0 (.modernFrame 2 0 payloadA) = some fa := by decide +kernel
theorem witness_DecodedWordsAreEncodings :
    decode cfg0 2 f1 = .ok (.legacyFrame 2 1 payload1) ∧ linkOk cfg0 2 = true := ⟨rfl, rfl⟩
theorem witness_OperationCodesDecode :
    (5 ≤ (5 : Byte).toNat ∧ (5 : Byte).toNat ≤ 7) ∧ 5 ≤ (7 : Byte).toNat ∧ (7 : Byte).toNat ≤ 7 := by decide
theorem witness_StepRunsDecodedRequest :
    State.reset.pending = [] ∧
    ({ State.reset with pending := [reqProcess 5] }.pending = [reqProcess 5] ∧
      decode cfg0 (reqProcess 5).link (reqProcess 5).word = .ok .process) ∧
    ({ State.reset with pending := [⟨0, 1, [7]⟩] }.pending = [⟨0, 1, [7]⟩] ∧
      decode cfg0 1 [7] = .error (.reservedOp 7)) := ⟨rfl, ⟨rfl, rfl⟩, rfl, rfl⟩
theorem witness_IssuedOperationsAreTotal : State.reset.Inv ∧ (Instr.ingest 2 fa).wellFormed State.reset.cfg = true ∧
    encode State.reset.cfg (.ingest 2 fa) = some (1 :: fa) := by unfold State.Inv; decide
theorem witness_FirstProcessAfterResetChangesNothing :
    State.reset.links = List.replicate State.reset.cfg.nLinks Link.reset := rfl
/-- A step that meets the premise and changes the state: a handshake request is stored. -/
theorem witness_StepKeepsInvariant : { State.reset with pending := [reqIngest 4 1 hsm] }.Inv ∧
    after (step { State.reset with pending := [reqIngest 4 1 hsm] }) =
      some (mk 4 { lnk .disconnected none hsm with tLast := 4 }) := by unfold State.Inv; decide
/-- Ticks that take T3 and that do not: the counter above its limit, and at it. -/
theorem witness_TickIsARunOfTableRules :
    ((mk 930 { Link.reset with dcc := 31 }).link? 1 = some { Link.reset with dcc := 31 } ∧
      (first (exec (.processLink 1) (mk 930 { Link.reset with dcc := 31 }))).map Link.cs = some .error) ∧
    (mk 930 { Link.reset with dcc := 30 }).link? 1 = some { Link.reset with dcc := 30 } ∧
      (first (exec (.processLink 1) (mk 930 { Link.reset with dcc := 30 }))).map Link.cs = some .disconnected := by
  decide
theorem witness_TickLeavesFreshPendingStart :
    ((mk 930 { Link.reset with dcc := 31 }).link? 1 = some { Link.reset with dcc := 31 } ∧
      cfg0.disconnectLimit < (31 : BitVec 8).toNat) ∧
    ((mk 930 { Link.reset with dcc := 30 }).link? 1 = some { Link.reset with dcc := 30 } ∧
      ¬ cfg0.disconnectLimit < (30 : BitVec 8).toNat) := by decide
theorem witness_PhaseBBoundSuffices : (Work.start (lnk .streamingParse (some .modern) bad)).link.cs ≠ .error ∧
    2 * (Work.start (lnk .streamingParse (some .modern) bad)).link.buf.length + 1 ≤ 33 := by decide
theorem witness_ProcessTicksEveryLink : State.reset.links.length = State.reset.cfg.nLinks := rfl
theorem witness_ProcessGrowsQueuesByLiterals : (mk 105 (lnk .disconnected none hsm)).Inv ∧
    (mk 105 (lnk .disconnected none hsm)).cfg.txqCap = none ∧
    first (exec .process (mk 105 (lnk .disconnected none hsm))) = some { lnk .pairing (some .modern) [] with
      tEntry := 105, txq := [0xAA, 0x13, 0xEC, 0x07, 0x01, 0xF1, 0xA2, 0x5D] } := by unfold State.Inv; decide
theorem witness_EventsPerOperation :
    (after (exec .process (mk 930 { Link.reset with dcc := 31 }))).map State.errOut =
      some [{ link := 1, kind := .protocolMismatch, raw := 0 }] ∧
    (after (exec (.ingest 1 [1]) (mk 5 (lnk .disconnected none (List.replicate 128 0))))).map State.errOut =
      some [{ link := 1, kind := .bufferOverflow, raw := 0 }] := by decide +kernel
theorem witness_DeliveredFramesMatch : Instr.process ≠ .reset ∧
    (after (exec .process (mk 1 (lnk .disconnected none f1)))).map State.frameOut =
      some [{ link := 1, variant := .legacy, frame := f1 }] := by decide +kernel
/-- Just outside on both sides. -/
theorem witness_LinkOutOfRangeRefused : linkArg (.ingest 0 []) = some 0 ∧ linkArg (.txPop 3) = some 3 ∧
    State.reset.links.length < 3 := by decide
theorem witness_OtherLinksUntouched : linkArg (.t5DisconnectedHandshake 1) = some 1 ∧
    (after (exec (.t5DisconnectedHandshake 1) (mk 105 (lnk .disconnected none hsm)))).isSome := by decide
/-- One byte into the last place, and into a full buffer. -/
theorem witness_IngestStoresWhatFits : State.reset.link? 2 = some Link.reset ∧
    fitting cfg0 0 { Link.reset with buf := List.replicate 128 0 } [1] = [] ∧
    fitting cfg0 0 { Link.reset with buf := List.replicate 127 0 } [1] = [1] := by decide +kernel
/-- The clause of LiteralsAreEmitted on the queue: unbounded, and of a capacity that the message reaches exactly. -/
theorem witness_LiteralsAreEmitted : cfg0.txqCap = none ∧
    Config.txqCap { cfg0 with txqCap := some 9 } = some 9 ∧ ([1] : List Byte).length + legacyPeriodicReqBytes.length ≤ 9 := by
  decide
/-- HandshakeRequestsArrive, LiteralsAreEmitted, SelectIsSticky, DemoteReturnsToDisconnected, PendingChangesNothing,
ReadStatusReturnsRegisters: a link the block has is all they ask. -/
theorem witness_linkAlone : State.reset.link? 1 = some Link.reset ∧ State.reset.link? 2 = some Link.reset := ⟨rfl, rfl⟩
theorem witness_DataFramesArrive : State.reset.link? 1 = some Link.reset ∧ payload1.length = 12 ∧
    State.reset.cfg.legacyCkBigEndian = true := ⟨rfl, rfl, rfl⟩
/-- LegacyChecksumIsSum, ModernChecksumIsBitSerial, ChecksumFieldByteOrder, ChecksumValidity: the shortest message, and
a frame. -/
theorem witness_checksumLength : (2 ≤ 2 ∧ 2 ≤ ([0, 0] : List Byte).length) ∧ 2 ≤ 16 ∧ 16 ≤ fa.length := by decide
theorem witness_BadChecksumLengthRefused :
    (1 < 2 ∨ ([0, 0] : List Byte).length < 1) ∧ (3 < 2 ∨ ([0, 0] : List Byte).length < 3) := by decide
/-- The last covered bit of a valid frame. -/
theorem witness_SingleBitFlipBreaksChecksum :
    16 ≤ fa.length ∧ 13 < 16 - 2 ∧ 7 < 8 ∧ ckValid cfg0 .modern fa 16 = true := by decide +kernel
theorem witness_ShortBuffersAreNoFrame : (fa.take 15).length < 16 := by decide
theorem witness_MatchesAreExclusive : hsMatch .legacy hsl = true ∧ frameMatch cfg0 .legacy f1 = true := by decide
theorem witness_ClassifyFollowsPredicates : f1 ≠ [] := by decide
theorem witness_ResyncFindsFirstUsableOffset :
    ([0x55, 0xAA] ≠ ([] : List Byte) ∧ classify cfg0 [0x55, 0xAA] [.legacy, .modern] = .noMatch ∧
      resync cfg0 [0x55, 0xAA] [.legacy, .modern] = 1) ∧
    [0x55] ≠ ([] : List Byte) ∧ classify cfg0 [0x55] [.legacy] = .noMatch ∧ resync cfg0 [0x55] [.legacy] = 1 := by decide
theorem witness_FrameRoundTripUnderOneVariant :
    f1.length = 16 ∧ frameMatch cfg0 .legacy f1 = true ∧ 13 < 14 ∧ 7 < 8 := by decide
theorem witness_EnterWritesEntryAction :
    (mk 0 (lnk .disconnected (some .legacy) [])).link? 1 = some (lnk .disconnected (some .legacy) []) ∧
    (mk 0 (lnk .disconnected (some .modern) [])).link? 1 = some (lnk .disconnected (some .modern) []) ∧
    State.reset.link? 1 = some Link.reset ∧ Link.reset.sel = none := ⟨rfl, rfl, rfl, rfl⟩

/-! A rule's witness is a small state `mk now L` (`mk_link`) whose link meets the rule's condition at its boundary. -/

theorem witness_ErrorIsLeftAtTheNextTick : (mk 0 (lnk .error none [])).link? 1 = some (lnk .error none []) ∧
    (lnk .error none []).cs = .error := ⟨rfl, rfl⟩
theorem witness_PeriodicReturnsToParse : (mk 0 (lnk .streamingPeriodic (some .modern) [])).link? 1 =
      some (lnk .streamingPeriodic (some .modern) []) ∧
    (lnk .streamingPeriodic (some .modern) []).cs = .streamingPeriodic := ⟨rfl, rfl⟩
theorem witness_MismatchEntersError :
    let L := { Link.reset with dcc := 31 }
    (mk 930 L).link? 1 = some L ∧ L.cs = .disconnected ∧ (mk 930 L).cfg.disconnectLimit < L.dcc.toNat := by decide
theorem witness_PairingTimesOut :
    let L := { lnk .pairing (some .modern) [] with tEntry := 105 }
    (mk 3106 L).link? 1 = some L ∧ L.cs = .pairing ∧ (mk 3106 L).cfg.tPair < elapsed cfg0 3106 L.tEntry := by
  decide
theorem witness_LinkLostDemotes :
    let L := { lnk .streamingParse (some .modern) [] with tLast := 600 }
    (mk 1101 L).link? 1 = some L ∧ L.cs = .streamingParse ∧
      (mk 1101 L).cfg.tUnactive < elapsed cfg0 1101 L.tLast := by decide
/-- `T_UNACTIVE` exactly since the last byte, `T_STREAM` exactly since the entry; for both variants. -/
theorem witness_StreamTimeEntersPeriodic : ∀ v : Variant, v = .legacy ∨ v = .modern →
    let L := { lnk .streamingParse (some v) [] with tLast := 550, tEntry := 500 }
    (mk 1050 L).link? 1 = some L ∧ L.cs = .streamingParse ∧ L.sel = some v ∧
      elapsed cfg0 1050 L.tLast ≤ (mk 1050 L).cfg.tUnactive ∧
      (mk 1050 L).cfg.tStream ≤ elapsed cfg0 1050 L.tEntry := by
  rintro v (rfl | rfl) <;> decide
theorem witness_DirectFrameStartsStreaming :
    let L := lnk .disconnected none f1
    (mk 0 L).link? 1 = some L ∧ L.cs = .disconnected ∧ classOf (mk 0 L).cfg L = .frame .legacy := by decide
theorem witness_HandshakeIsAnswered :
    let L := lnk .disconnected none hsm
    let K := lnk .disconnected none hsl
    ((mk 0 L).link? 1 = some L ∧ L.cs = .disconnected ∧ classOf (mk 0 L).cfg L = .handshake .modern) ∧
    (mk 0 K).link? 1 = some K ∧ K.cs = .disconnected ∧ classOf (mk 0 K).cfg K = .handshake .legacy := by decide
theorem witness_ResyncDiscardsAndStays :
    let L := lnk .disconnected none [0x55]
    (mk 0 L).link? 1 = some L ∧ L.cs = .disconnected ∧ L.buf ≠ [] ∧ classOf (mk 0 L).cfg L = .noMatch := by decide
theorem witness_FirstFrameEndsPairing :
    let L := lnk .pairing (some .legacy) f1
    (mk 0 L).link? 1 = some L ∧ L.cs = .pairing ∧ L.sel = some .legacy ∧
      classOf (mk 0 L).cfg L = .frame .legacy := by decide
theorem witness_PairingNomatchDemotes :
    let L := lnk .pairing (some .modern) [0x55]
    (mk 0 L).link? 1 = some L ∧ L.cs = .pairing ∧ L.buf ≠ [] ∧ classOf (mk 0 L).cfg L = .noMatch := by decide
theorem witness_StreamingDemotes :
    let L := lnk .streamingParse (some .modern) [0x55]
    let K := lnk .streamingPeriodic (some .legacy) hsl
    ((mk 0 L).link? 1 = some L ∧ L.cs = .streamingParse ∧ L.buf ≠ [] ∧ classOf (mk 0 L).cfg L = .noMatch) ∧
    (mk 0 K).link? 1 = some K ∧ K.cs = .streamingPeriodic ∧ K.buf ≠ [] ∧
      classOf (mk 0 K).cfg K = .handshake .legacy := by decide
theorem witness_RepeatedHandshakeIsConsumed :
    let L := lnk .pairing (some .modern) hsm
    (mk 0 L).link? 1 = some L ∧ L.cs = .pairing ∧ classOf (mk 0 L).cfg L = .handshake .modern := by decide
theorem witness_FrameIsAccepted :
    let L := lnk .streamingParse (some .legacy) f2
    (mk 0 L).link? 1 = some L ∧ LinkInv (mk 0 L).cfg L ∧ classOf (mk 0 L).cfg L = .frame .legacy := by decide
/-- The threshold reached exactly. -/
theorem witness_PacketCountEntersPeriodic :
    let L := { lnk .streamingParse (some .legacy) [] with pkt := 3 }
    let s := { mk 1 L with cfg := { cfg0 with pktThreshLegacy := 3 } }
    s.link? 1 = some L ∧ L.cs = .streamingParse ∧ L.sel = some .legacy ∧ s.cfg.pktThreshLegacy ≠ 0 ∧
      s.cfg.pktThreshLegacy ≤ L.pkt.toNat := by decide
/-- Each clause's premise: a reset link (T1, T2, T7 to T13, PAIRING_HS_REPEAT, and with `dcc` at most the limit T3; its
empty buffer is no frame and no handshake for T4, T5, FRAME_ACCEPT), the empty buffer and a Pending start in the state
each of T6, T8 and T12 is for, and the times just short of T9's, T10's and T11's; for T13 a threshold of 0, and `pkt` one below a threshold. -/
theorem witness_RulesNeedTheirConditions :
    (State.reset.link? 1 = some Link.reset ∧ Link.reset.cs ≠ .error ∧ Link.reset.cs ≠ .streamingPeriodic ∧
      Link.reset.cs ≠ .streamingParse ∧ Link.reset.cs ≠ .pairing ∧ Link.reset.dcc.toNat ≤ cfg0.disconnectLimit) ∧
    ((lnk .disconnected none []).buf = [] ∧ (lnk .pairing (some .modern) []).buf = [] ∧
      (lnk .streamingPeriodic (some .legacy) []).buf = []) ∧
    (classOf cfg0 (lnk .disconnected none [0xAA]) = .pending ∧
      classOf cfg0 (lnk .pairing (some .modern) [0x41]) = .pending ∧
      classOf cfg0 (lnk .streamingParse (some .legacy) [0xAA]) = .pending) ∧
    elapsed cfg0 3105 105 ≤ cfg0.tPair ∧ elapsed cfg0 1100 600 ≤ cfg0.tUnactive ∧
      elapsed cfg0 549 0 < cfg0.tStream ∧ (descriptor cfg0 .modern).pktThresh = 0 ∧
      (2 : Word16).toNat < (descriptor { cfg0 with pktThreshLegacy := 3 } .legacy).pktThresh := by decide
theorem witness_TxPopTakesTheHead :
    let L := { Link.reset with txq := [1] }
    ((mk 0 Link.reset).link? 1 = some Link.reset ∧ Link.reset.txq = []) ∧
      (mk 0 L).link? 1 = some L ∧ L.txq = 1 :: [] := ⟨⟨rfl, rfl⟩, rfl, rfl⟩

end Sys2Proof.Tests
end

section
/-! SUPPORT. The invariants of R39 and the growth of a transmit queue, through every operation on one link: each shared
operation keeps both, so a tick and an INGEST do. -/

namespace Sys2Proof.Machine

open Sys2Proof

/-! ## Growth by whole literals -/

theorem GrownByLiterals.refl (q : List Byte) : GrownByLiterals q q := ⟨[], by simp, by simp⟩

theorem GrownByLiterals.trans {p q r : List Byte} (h₁ : GrownByLiterals p q) (h₂ : GrownByLiterals q r) :
    GrownByLiterals p r := by
  obtain ⟨ms, hms, rfl⟩ := h₁
  obtain ⟨ns, hns, rfl⟩ := h₂
  exact ⟨ms ++ ns, List.forall_mem_append.2 ⟨hms, hns⟩, by simp⟩

theorem GrownByLiterals.append {m : List Byte} (hm : m ∈ emittedLiterals) (q : List Byte) :
    GrownByLiterals q (q ++ m) := ⟨[m], by simpa using hm, by simp⟩

/-- What `enter(Pairing)` emits for a selected variant is one of the literals (R187). -/
theorem responseOf_mem_emittedLiterals (c : Config) {sel : Option Variant} (h : sel ≠ .none) :
    responseOf c sel ∈ emittedLiterals := by
  obtain ⟨v, rfl⟩ := Option.ne_none_iff_exists'.1 h
  cases v <;> simp [responseOf, descriptor, legacyDescriptor, modernDescriptor, emittedLiterals]

/-- What `enter(StreamingPeriodic)` emits for a selected variant is one of the literals (R187). -/
theorem periodicOf_mem_emittedLiterals (c : Config) {sel : Option Variant} (h : sel ≠ .none) :
    periodicOf c sel ∈ emittedLiterals := by
  obtain ⟨v, rfl⟩ := Option.ne_none_iff_exists'.1 h
  cases v <;> simp [periodicOf, descriptor, legacyDescriptor, modernDescriptor, emittedLiterals]

/-! ## What an operation on a link keeps -/

/-- The registers `L` of a link whose registers were `L₀` when the operation began: `LinkInv` but for its clause on the
selection, which SELECT breaks until the `enter` that follows it (R193, R194), and the queue grown by literals. -/
structure Tracked (c : Config) (L₀ L : Link) : Prop where
  buf : L.buf.wf c.bufCap
  tLast : L.tLast < 2 ^ c.timeW
  tEntry : L.tEntry < 2 ^ c.timeW
  queue : queueOk c L.txq = true
  grown : c.txqCap = .none → GrownByLiterals L₀.txq L.txq

/-- `Tracked`, and a selection exactly outside Disconnected and Error (R39 (ii)). -/
structure Sound (c : Config) (L₀ L : Link) : Prop extends Tracked c L₀ L where
  sel : L.sel = .none ↔ L.cs = .disconnected ∨ L.cs = .error

theorem Sound.of_linkInv {c : Config} {L : Link} (h : LinkInv c L) : Sound c L L := by
  obtain ⟨hbuf, hsel, hlast, hentry, hq⟩ := h
  exact ⟨⟨hbuf, hlast, hentry, hq, fun _ => .refl _⟩, hsel⟩

section
variable {c : Config} {now : Nat} {L₀ L : Link}

theorem Sound.linkInv (h : Sound c L₀ L) : LinkInv c L := ⟨h.buf, h.sel, h.tLast, h.tEntry, h.queue⟩

theorem Sound.sel_ne_none (h : Sound c L₀ L) (hd : L.cs ≠ .disconnected) (he : L.cs ≠ .error) : L.sel ≠ .none :=
  fun hs => (h.sel.1 hs).elim hd he

/-! ## The shared operations -/

theorem Tracked.setDcc (h : Tracked c L₀ L) (d : BitVec 8) : Tracked c L₀ { L with dcc := d } :=
  ⟨h.buf, h.tLast, h.tEntry, h.queue, h.grown⟩

theorem Sound.setDcc (h : Sound c L₀ L) (d : BitVec 8) : Sound c L₀ { L with dcc := d } :=
  ⟨h.toTracked.setDcc d, h.sel⟩

theorem Sound.setPkt (h : Sound c L₀ L) (p : Word16) : Sound c L₀ { L with pkt := p } :=
  ⟨⟨h.buf, h.tLast, h.tEntry, h.queue, h.grown⟩, h.sel⟩

theorem Tracked.consume (h : Tracked c L₀ L) (k : Nat) : Tracked c L₀ (consume k L) :=
  ⟨consume_wf k h.buf, h.tLast, h.tEntry, h.queue, h.grown⟩

theorem Sound.consume (h : Sound c L₀ L) (k : Nat) : Sound c L₀ (consume k L) := ⟨h.toTracked.consume k, h.sel⟩

theorem Sound.idleReset (h : Sound c L₀ L) : Sound c L₀ (idleReset c now L) := by
  obtain he | he := idleReset_cases c now L <;> rw [he]
  · exact h
  · exact ⟨⟨Nat.zero_le _, h.tLast, h.tEntry, h.queue, h.grown⟩, h.sel⟩

theorem Sound.appendAll (h : Sound c L₀ L) (hn : now < 2 ^ c.timeW) (bs : List Byte) :
    Sound c L₀ (appendAll c now bs L).1 := by
  have hwf := appendAll_wf now bs h.buf
  rw [appendAll_eq] at hwf ⊢
  refine ⟨⟨hwf, ?_, h.tEntry, h.queue, h.grown⟩, h.sel⟩
  dsimp only
  split
  · exact h.tLast
  · exact hn

theorem Tracked.tx (h : Tracked c L₀ L) {m : List Byte} (hm : m ∈ emittedLiterals) : Tracked c L₀ (tx c m L) where
  buf := h.buf
  tLast := h.tLast
  tEntry := h.tEntry
  queue := enqueue_queueOk m h.queue
  grown hc := (h.grown hc).trans (by simpa [Machine.tx, enqueue_unbounded hc] using .append hm L.txq)

theorem Sound.tx (h : Sound c L₀ L) {m : List Byte} (hm : m ∈ emittedLiterals) : Sound c L₀ (tx c m L) :=
  ⟨h.toTracked.tx hm, h.sel⟩

theorem Tracked.select (h : Tracked c L₀ L) (v : Variant) : Tracked c L₀ (select v L) := by
  unfold Machine.select
  split
  · exact ⟨h.buf, h.tLast, h.tEntry, h.queue, h.grown⟩
  · exact h

/-- `enter(S)` establishes the invariant, whatever the state was: Disconnected drops the selection, Error needs none held
and each other state needs one (R187). -/
theorem Tracked.enter (h : Tracked c L₀ L) (hn : now < 2 ^ c.timeW) {S : ConnState}
    (hsel : S = .disconnected ∨ (L.sel = .none ↔ S = .error)) : Sound c L₀ (enter c now S L) := by
  have hcs : Tracked c L₀ { L with cs := S, tEntry := now } := ⟨h.buf, h.tLast, hn, h.queue, h.grown⟩
  cases S with
  | disconnected => exact ⟨⟨h.buf, h.tLast, hn, h.queue, h.grown⟩, by simp [Machine.enter, entryAction]⟩
  | error => exact ⟨hcs, by simpa [Machine.enter, entryAction] using hsel⟩
  | streamingParse =>
    have hne : L.sel ≠ .none := by simpa using hsel
    exact ⟨⟨h.buf, h.tLast, hn, h.queue, h.grown⟩, by simpa [Machine.enter, entryAction] using hne⟩
  | pairing =>
    have hne : L.sel ≠ .none := by simpa using hsel
    exact ⟨hcs.tx (responseOf_mem_emittedLiterals c hne), by simpa [Machine.enter, entryAction, Machine.tx] using hne⟩
  | streamingPeriodic =>
    have hne : L.sel ≠ .none := by simpa using hsel
    exact ⟨hcs.tx (periodicOf_mem_emittedLiterals c hne), by simpa [Machine.enter, entryAction, Machine.tx] using hne⟩

theorem Tracked.demote (h : Tracked c L₀ L) (hn : now < 2 ^ c.timeW) : Sound c L₀ (demote c now L) :=
  (h.setDcc _).enter hn (.inl rfl)

theorem Tracked.leaveError (h : Tracked c L₀ L) (hn : now < 2 ^ c.timeW) : Sound c L₀ (leaveError c now L) :=
  (h.setDcc _).enter hn (.inl rfl)

/-- Entering a connected state from a connected state (T2, T7, T11, T13). -/
theorem Sound.enter_connected (h : Sound c L₀ L) (hn : now < 2 ^ c.timeW) (hd : L.cs ≠ .disconnected)
    (he : L.cs ≠ .error) {S : ConnState} (hS : S ≠ .error) : Sound c L₀ (enter c now S L) :=
  h.toTracked.enter hn (.inr (iff_of_false (h.sel_ne_none hd he) hS))

/-! ## The actions of Phase B -/

theorem Sound.t13 (h : Sound c L₀ L) (hn : now < 2 ^ c.timeW) : Sound c L₀ (t13 c now L) := by
  unfold Machine.t13
  split
  · rename_i hfire
    exact h.enter_connected hn (by simp [hfire.1]) (by simp [hfire.1]) (by simp)
  · exact h

theorem accept_link (c : Config) (now : Nat) (v : Variant) (w : Work) :
    (accept c now v w).link =
      t13 c now { consume frameLen { w.link with dcc := 0 } with pkt := satInc w.link.pkt } := rfl

end

section
variable {c : Config} {now : Nat} {L₀ : Link} {w : Work}

theorem Sound.accept (h : Sound c L₀ w.link) (hn : now < 2 ^ c.timeW) (v : Variant) :
    Sound c L₀ (accept c now v w).link := by
  rw [accept_link]
  exact (((h.setDcc 0).consume frameLen).setPkt _).t13 hn

theorem Tracked.actT4 (h : Tracked c L₀ w.link) (hn : now < 2 ^ c.timeW) (v : Variant) :
    Sound c L₀ (actT4 c now v w).link :=
  Sound.accept (w := w.upd _)
    ((h.select v).enter (S := .streamingParse) hn (.inr (iff_of_false (select_sel v _) (by simp)))) hn v

theorem Tracked.actT5 {L : Link} (h : Tracked c L₀ L) (hn : now < 2 ^ c.timeW) (v : Variant) :
    Sound c L₀ (actT5 c now v L) :=
  ((h.select v).consume _).enter hn (.inr (iff_of_false (select_sel v L) (by simp)))

theorem Sound.actT7 (h : Sound c L₀ w.link) (hn : now < 2 ^ c.timeW) (hcs : w.link.cs = .pairing) (v : Variant) :
    Sound c L₀ (actT7 c now v w).link :=
  Sound.accept (w := w.upd _)
    (h.enter_connected (S := .streamingParse) hn (by simp [hcs]) (by simp [hcs]) (by simp)) hn v

/-! ## The tick -/

/-- Phase A keeps the invariant: T3 is the one rule that enters Error, and it fires in Disconnected (R192). -/
theorem phaseA_sound (h : Sound c L₀ w.link) (hn : now < 2 ^ c.timeW) : Sound c L₀ (phaseA c now w).1.link := by
  unfold phaseA
  split
  case _ => exact h.toTracked.leaveError hn
  case _ hcs => exact h.enter_connected (S := .streamingParse) hn (by simp [hcs]) (by simp [hcs]) (by simp)
  case _ hcs =>
    split
    · exact h.toTracked.enter hn (.inr (iff_of_true (h.sel.2 (.inl hcs)) rfl))
    · exact h
  case _ =>
    simp only [Work.upd_link, ruleT9]
    split
    · exact h.toTracked.demote hn
    · exact h
  case _ hcs =>
    split
    · exact h.toTracked.demote hn
    · split
      · exact h.enter_connected (S := .streamingPeriodic) hn (by simp [hcs]) (by simp [hcs]) (by simp)
      · exact h

/-- One iteration of Phase B keeps the invariant, for any classification. -/
theorem phaseBStep_sound (h : Sound c L₀ w.link) (hn : now < 2 ^ c.timeW) (k : Class) :
    Sound c L₀ (phaseBStep c now w k).1.link := by
  cases k with
  | pending => exact h
  | handshake v =>
    unfold phaseBStep
    dsimp only
    split
    · exact h.toTracked.actT5 hn v
    · exact h.consume _
    · exact h.toTracked.demote hn
    · exact h.toTracked.demote hn
    · exact h
  | frame v =>
    unfold phaseBStep
    dsimp only
    split
    · exact h.toTracked.actT4 hn v
    · rename_i hcs; exact h.actT7 hn hcs v
    · exact h.accept hn v
  | noMatch =>
    unfold phaseBStep
    dsimp only
    split
    · exact h.consume _
    · exact h.toTracked.demote hn

theorem phaseB_sound (hn : now < 2 ^ c.timeW) (fuel : Nat) :
    ∀ {w : Work}, Sound c L₀ w.link → Sound c L₀ (phaseB c now fuel w).link := by
  induction fuel with
  | zero => exact fun h => h
  | succ fuel ih =>
    intro w h
    have hstep := phaseBStep_sound h hn (classOf c w.link)
    unfold phaseB
    split
    · exact h
    · split <;> rename_i hw <;> rw [hw] at hstep
      · exact ih hstep
      · exact hstep

theorem phaseC_sound (h : Sound c L₀ w.link) (startedDisc : Bool) : Sound c L₀ (phaseC c now startedDisc w).link := by
  unfold phaseC
  dsimp only [Work.upd_link]
  refine Sound.idleReset ?_
  split
  · exact h.setDcc _
  · exact h

/-- A tick keeps the invariant of its link and grows its queue by literals (R255). -/
theorem processLink_sound (h : Sound c L₀ w.link) (hn : now < 2 ^ c.timeW) :
    Sound c L₀ (processLink c now w).link := by
  have hA := phaseA_sound h hn
  unfold processLink
  split <;> rename_i w₁ hw <;> rw [hw] at hA
  · exact hA
  · exact phaseC_sound (phaseB_sound (w := { w₁ with discarded := false }) hn _ hA) _

theorem ingest_sound (h : Sound c L₀ w.link) (hn : now < 2 ^ c.timeW) (bytes : List Byte) :
    Sound c L₀ (ingest c now bytes w).link := by
  unfold ingest
  dsimp only
  split <;> exact h.idleReset.appendAll hn bytes

end

/-- Every link after reset meets the invariant, whatever the parameters (R38). -/
theorem Link.reset_linkInv (c : Config) : LinkInv c Link.reset := by
  refine ⟨Link.reset_wf _, by simp [Link.reset], Nat.two_pow_pos _, Nat.two_pow_pos _, ?_⟩
  unfold queueOk
  split <;> simp [Link.reset]

/-- Taking the head of the queue keeps the invariant (R260). -/
theorem LinkInv.popped {c : Config} {L : Link} (h : LinkInv c L) : LinkInv c { L with txq := L.txq.tail } := by
  obtain ⟨hbuf, hsel, hlast, hentry, hq⟩ := h
  refine ⟨hbuf, hsel, hlast, hentry, ?_⟩
  show queueOk c L.txq.tail = true
  cases hL : L.txq with
  | nil => rwa [hL] at hq
  | cons b q => exact queueOk_tail (hL ▸ hq)

end Sys2Proof.Machine
end

section
/-! SUPPORT. The invariants of R39 on the state: what keeps them, and every instruction that has a word does. -/

namespace Sys2Proof.Machine

open Sys2Proof

/-! ## Writing links of the state -/

theorem State.mem_links_of_link? {s : State} {l : Nat} {L : Link} (h : s.link? l = .some L) : L ∈ s.links := by
  cases l with
  | zero => cases h
  | succ k => exact List.mem_of_getElem? h

theorem State.mem_links_setLink {s : State} {l : Nat} {L M : Link} (h : M ∈ (s.setLink l L).links) :
    M ∈ s.links ∨ M = L := by
  cases l with
  | zero => exact .inl h
  | succ k => exact List.mem_or_eq_of_mem_set h

theorem State.Inv.now_lt {s : State} (h : s.Inv) : s.now < 2 ^ s.cfg.timeW := h.2.1

theorem State.Inv.linkInv {s : State} (h : s.Inv) {l : Nat} {L : Link} (hl : s.link? l = .some L) :
    LinkInv s.cfg L := h.2.2 L (State.mem_links_of_link? hl)

theorem State.Inv.setLink {s : State} (h : s.Inv) {L : Link} (hL : LinkInv s.cfg L) (l : Nat) :
    (s.setLink l L).Inv := by
  obtain ⟨hlen, hnow, hlinks⟩ := h
  refine ⟨by simpa using hlen, by simpa using hnow, fun M hM => ?_⟩
  rw [State.setLink_cfg]
  obtain hM | rfl := State.mem_links_setLink hM
  · exact hlinks M hM
  · exact hL

theorem State.Inv.commit {s : State} (h : s.Inv) {w : Work} (hw : LinkInv s.cfg w.link) (l : Nat) :
    (s.commit l w).Inv := h.setLink hw l

theorem State.Inv.answer {s : State} (h : s.Inv) (r : Result) : (s.answer r).Inv := h

theorem State.Inv.accepting {s : State} (h : s.Inv) (r : Request) (rest : List Request) :
    (s.accepting r rest).Inv := by
  obtain ⟨hlen, _, hlinks⟩ := h
  exact ⟨hlen, sample_lt _ _, hlinks⟩

/-- An operation on a link that is sound there keeps the invariants. -/
theorem onLink_inv {s t : State} {l : Nat} {f : Config → Nat → Work → Work} (h : s.Inv)
    (hf : ∀ L, Sound s.cfg L L → Sound s.cfg L (f s.cfg s.now (Work.start L)).link) (ht : onLink l s f = .next t) :
    t.Inv := by
  obtain ⟨L, hl, rfl⟩ := onLink_next ht
  exact h.commit (hf L (.of_linkInv (h.linkInv hl))).linkInv l

/-! ## PROCESS -/

/-- What a run of ticks from `s` has kept: the parameters and the invariants, each queue grown by literals. -/
structure State.TickedFrom (s t : State) : Prop where
  cfg : t.cfg = s.cfg
  inv : t.Inv
  grown : s.cfg.txqCap = .none → ∀ (l : Nat) (L L' : Link), s.link? l = .some L → t.link? l = .some L' →
    GrownByLiterals L.txq L'.txq

theorem State.TickedFrom.refl {s : State} (h : s.Inv) : s.TickedFrom s where
  cfg := rfl
  inv := h
  grown _ l L L' hL hL' := by
    obtain rfl : L = L' := Option.some.inj (hL.symm.trans hL')
    exact .refl _

/-- One more tick: its link by `processLink_sound`, every other link as it was (R254). -/
theorem State.TickedFrom.tick {s t : State} (h : s.TickedFrom t) (m : Nat) :
    s.TickedFrom (t.updLink m processLink) := by
  cases hm : t.link? m with
  | none => simpa [State.updLink, hm] using h
  | some M =>
    have hM : Sound t.cfg M (processLink t.cfg t.now (Work.start M)).link :=
      processLink_sound (.of_linkInv (h.inv.linkInv hm)) h.inv.now_lt
    rw [State.updLink_eq _ hm]
    refine ⟨by simpa using h.cfg, h.inv.commit hM.linkInv m, fun hc l L L' hL hL' => ?_⟩
    by_cases hlm : l = m
    · subst hlm
      rw [State.link?_commit_same _ hm] at hL'
      cases hL'
      exact (h.grown hc l L M hL hm).trans (hM.grown (h.cfg ▸ hc))
    · rw [State.link?_commit_other _ hlm] at hL'
      exact h.grown hc l L L' hL hL'

theorem State.TickedFrom.processLinks {s t : State} (h : s.TickedFrom t) (ls : List Nat) :
    s.TickedFrom (processLinks t ls) := by
  induction ls generalizing t with
  | nil => exact h
  | cons l ls ih => exact ih (h.tick l)

theorem execProcess_tickedFrom {s t : State} (h : s.Inv) (ht : execProcess s = .next t) : s.TickedFrom t := by
  cases ht
  exact (State.TickedFrom.refl h).processLinks _

/-! ## The instructions that have a word -/

theorem receive_inv {s t : State} {l : Nat} {m : List Byte} (h : s.Inv) (ht : receive l s m = .next t) : t.Inv :=
  onLink_inv h (fun _ hL => ingest_sound hL h.now_lt m) ht

theorem emit_inv {s t : State} {l : Nat} {m : List Byte} (h : s.Inv) (hm : m ∈ emittedLiterals)
    (ht : emit l s m = .next t) : t.Inv :=
  onLink_inv h (fun _ hL => hL.tx hm) ht

theorem execReset_inv {s t : State} (h : s.Inv) (ht : execReset s = .next t) : t.Inv := by
  cases ht
  refine ⟨List.length_replicate, h.now_lt, fun L hL => ?_⟩
  obtain rfl := List.eq_of_mem_replicate hL
  exact Link.reset_linkInv _

theorem execTxPop_next {s t : State} {l : Nat} (ht : execTxPop l s = .next t) :
    ∃ L, s.link? l = .some L ∧ t = (s.setLink l { L with txq := L.txq.tail }).answer (.popped L.txq.head?) := by
  unfold execTxPop at ht
  split at ht
  · cases ht
  · cases ht; exact ⟨_, ‹_›, rfl⟩

theorem execReadStatus_next {s t : State} {l : Nat} (ht : execReadStatus l s = .next t) :
    ∃ L, s.link? l = .some L ∧ t = s.answer (.status (statusOf L)) := by
  unfold execReadStatus at ht
  split at ht
  · cases ht
  · cases ht; exact ⟨_, ‹_›, rfl⟩

theorem execTxPop_inv {s t : State} {l : Nat} (h : s.Inv) (ht : execTxPop l s = .next t) : t.Inv := by
  obtain ⟨L, hl, rfl⟩ := execTxPop_next ht
  exact (h.setLink (h.linkInv hl).popped l).answer _

theorem execReadStatus_inv {s t : State} {l : Nat} (h : s.Inv) (ht : execReadStatus l s = .next t) : t.Inv := by
  obtain ⟨L, _, rfl⟩ := execReadStatus_next ht
  exact h.answer _

/-- Every instruction that has a word keeps the invariants. Those without one do not all: a bare ENTER of Pairing with
nothing selected breaks R39 (ii). -/
theorem exec_inv {s t : State} {i : Instr} (h : s.Inv) (hw : encode s.cfg i ≠ .none) (ht : exec i s = .next t) :
    t.Inv := by
  cases i with
  | legacyHsReq l => exact receive_inv h ht
  | modernHsReq l => exact receive_inv h ht
  | legacyFrame l tag payload => exact receive_inv h ht
  | modernFrame l tag payload => exact receive_inv h ht
  | ingest l bytes => exact receive_inv h ht
  | legacyHsRsp l => exact emit_inv h (by simp [emittedLiterals]) ht
  | legacyPeriodicReq l => exact emit_inv h (by simp [emittedLiterals]) ht
  | modernHsRsp l => exact emit_inv h (by simp [emittedLiterals]) ht
  | modernPeriodicReq l => exact emit_inv h (by simp [emittedLiterals]) ht
  | reset => exact execReset_inv h ht
  | process => exact (execProcess_tickedFrom h ht).inv
  | txPop l => exact execTxPop_inv h ht
  | readStatus l => exact execReadStatus_inv h ht
  | _ => exact absurd rfl hw

/-! ## The decoder gives only instructions that have a word (R112) -/

theorem bare_ok {code : Nat} {rest : List Byte} {i j : Instr} (h : bare code rest i = .ok j) : j = i := by
  unfold bare at h
  split at h <;> cases h
  rfl

theorem decodeFrame_ok {c : Config} {v : Variant} {w : List Byte} {i j : Instr}
    (h : decodeFrame c v w i = .ok j) : j = i := by
  unfold decodeFrame at h
  split at h <;> cases h
  rfl

theorem decodeOp_encode {l code : Nat} {rest : List Byte} {i : Instr} (h : decodeOp l code rest = .ok i)
    (c : Config) : encode c i ≠ .none := by
  unfold decodeOp at h
  split at h
  · rw [bare_ok h]; simp [encode]
  · cases h; simp [encode]
  · rw [bare_ok h]; simp [encode]
  · rw [bare_ok h]; simp [encode]
  · rw [bare_ok h]; simp [encode]
  · cases h

theorem decodeMessage_encode {c : Config} {l : Nat} {w : List Byte} {i : Instr} (h : decodeMessage c l w = .ok i) :
    encode c i ≠ .none := by
  unfold decodeMessage at h
  split_ifs at h
  · cases h; simp [encode]
  · cases h; simp [encode]
  · rw [decodeFrame_ok h]; simp [encode]
  · rw [decodeFrame_ok h]; simp [encode]
  all_goals cases h; simp [encode]

theorem decode_encode_ne_none {c : Config} {l : Nat} {w : List Byte} {i : Instr} (h : decode c l w = .ok i) :
    encode c i ≠ .none := by
  unfold decode at h
  split at h
  · exact decodeMessage_encode h
  · split at h
    · exact decodeOp_encode h c
    · exact decodeMessage_encode h

/-- What a step that answers has done: nothing, with nothing pending, or the instruction of the oldest request. -/
theorem step_next {s t : State} (h : step s = .next t) :
    t = s ∨ ∃ r rest i, s.pending = r :: rest ∧ decode s.cfg r.link r.word = .ok i ∧
      exec i (s.accepting r rest) = .next t := by
  unfold step at h
  split at h
  · cases h; exact .inl rfl
  · rename_i r rest hp
    split at h
    · exact .inr ⟨r, rest, _, hp, ‹_›, h⟩
    · cases h

end Sys2Proof.Machine
end

section
/-! SUPPORT. What an instruction with a link operand leaves unchanged (R20). -/

namespace Sys2Proof.Machine

open Sys2Proof

/-- What an operation on link `l` leaves as it was, and what it may append to the streams (R20). -/
structure State.OnlyLink (l : Nat) (s t : State) : Prop where
  links : ∀ m, m ≠ l → t.link? m = s.link? m
  cfg : t.cfg = s.cfg
  now : t.now = s.now
  pending : t.pending = s.pending
  frameOut : ∃ fs, t.frameOut = s.frameOut ++ fs ∧ ∀ e ∈ fs, e.link = l
  errOut : ∃ es, t.errOut = s.errOut ++ es ∧ ∀ e ∈ es, e.link = l

theorem State.onlyLink_commit (s : State) (l : Nat) (w : Work) : State.OnlyLink l s (s.commit l w) where
  links _ hm := State.link?_commit_other w hm
  cfg := State.commit_cfg s l w
  now := State.commit_now s l w
  pending := State.commit_pending s l w
  frameOut := ⟨_, State.commit_frameOut s l w, List.forall_mem_map.2 fun _ _ => rfl⟩
  errOut := ⟨_, State.commit_errOut s l w, List.forall_mem_map.2 fun _ _ => rfl⟩

theorem State.onlyLink_setLink (s : State) (l : Nat) (L : Link) : State.OnlyLink l s (s.setLink l L) := by
  simpa [State.commit] using State.onlyLink_commit s l (Work.start L)

theorem State.OnlyLink.answer {l : Nat} {s t : State} (h : State.OnlyLink l s t) (r : Result) :
    State.OnlyLink l s (t.answer r) :=
  ⟨fun m hm => (State.link?_answer t r m).trans (h.links m hm), h.cfg, h.now, h.pending, h.frameOut, h.errOut⟩

theorem State.OnlyLink.refl (l : Nat) (s : State) : State.OnlyLink l s s :=
  ⟨fun _ _ => rfl, rfl, rfl, rfl, ⟨[], by simp, by simp⟩, ⟨[], by simp, by simp⟩⟩

theorem onLink_onlyLink {s t : State} {l : Nat} {f : Config → Nat → Work → Work} (h : onLink l s f = .next t) :
    State.OnlyLink l s t := by
  obtain ⟨L, _, rfl⟩ := onLink_next h
  exact State.onlyLink_commit s l _

/-- An instruction with a link operand runs through `onLink`, but for TX_POP and READ_STATUS. -/
theorem exec_eq_onLink {i : Instr} {l : Nat} (h : linkArg i = .some l) (hpop : i ≠ .txPop l)
    (hread : i ≠ .readStatus l) (s : State) : ∃ f, exec i s = onLink l s f := by
  cases i with
  | txPop k => cases h; exact absurd rfl hpop
  | readStatus k => cases h; exact absurd rfl hread
  | _ => cases h <;> exact ⟨_, rfl⟩

theorem exec_onlyLink {i : Instr} {l : Nat} {s t : State} (h : linkArg i = .some l) (ht : exec i s = .next t) :
    State.OnlyLink l s t := by
  by_cases hpop : i = .txPop l
  · subst hpop
    obtain ⟨L, _, rfl⟩ := execTxPop_next ht
    exact (State.onlyLink_setLink s l _).answer _
  by_cases hread : i = .readStatus l
  · subst hread
    obtain ⟨L, _, rfl⟩ := execReadStatus_next ht
    exact (State.OnlyLink.refl l s).answer _
  obtain ⟨f, hf⟩ := exec_eq_onLink h hpop hread s
  exact onLink_onlyLink (hf ▸ ht)

end Sys2Proof.Machine
end

section
/-! The statements about the state (10_state.md). -/

namespace Sys2Proof.Machine

open Sys2Proof

/-- Settles O10: a request decodes only to an instruction that has a word, and each of those keeps the invariants. -/
theorem stepKeepsInvariant : Obligations.StepKeepsInvariant := by
  intro s t hs ht
  obtain rfl | ⟨r, rest, i, _, hi, hexec⟩ := step_next ht
  · exact hs
  · exact exec_inv (hs.accepting r rest) (decode_encode_ne_none hi) hexec

/-- Settles O16: the ticks of a PROCESS emit only through `enter`, which emits a literal of the selected variant. -/
theorem processGrowsQueuesByLiterals : Obligations.ProcessGrowsQueuesByLiterals := by
  intro s t hs hcap ht
  exact (execProcess_tickedFrom hs ht).grown hcap

/-- Settles O20, by the frame lemma of instructions with a link operand. -/
theorem otherLinksUntouched : Obligations.OtherLinksUntouched := by
  intro i l s t hi ht
  have h := exec_onlyLink hi ht
  exact ⟨h.links, fun m a hm => by rw [h.links m hm], h.cfg, h.now, h.pending, h.frameOut, h.errOut⟩

/-- Settles O8: each of the links is a copy of `Link.reset`. -/
theorem stateAfterResetIsR38 : Obligations.StateAfterResetIsR38 := by
  refine ⟨rfl, fun L hL => ?_, rfl, rfl, rfl⟩
  obtain rfl := List.eq_of_mem_replicate hL
  exact ⟨rfl, rfl, rfl, rfl, rfl, rfl, rfl, rfl⟩

/-- Settles O11: each of the links is a copy of `Link.reset`, which meets the link invariant. -/
theorem resetMeetsInvariant : Obligations.ResetMeetsInvariant := by
  refine ⟨List.length_replicate, Nat.two_pow_pos _, fun L hL => ?_⟩
  obtain rfl := List.eq_of_mem_replicate hL
  exact Link.reset_linkInv _

end Sys2Proof.Machine
end

section
/-! SUPPORT. The words of the wire (30_encoding.md sections 2 to 4): the checksum field as two bytes, the words that fit
a pattern, and the words that are data frames. -/

namespace Sys2Proof.Machine

open Sys2Proof

/-! ## The checksum field (R68, R69, R98) -/

theorem extractLsb'_low_join (x y : Byte) : (zext16 x <<< 8 ||| zext16 y).extractLsb' 0 8 = y := by
  ext i hi
  simp [zext16, hi, show i < 16 by omega]

theorem extractLsb'_high_join (x y : Byte) : (zext16 x <<< 8 ||| zext16 y).extractLsb' 8 8 = x := by
  ext i hi
  simp [zext16, hi, show 8 + i < 16 by omega]

theorem join_extractLsb' (z : Word16) : zext16 (z.extractLsb' 8 8) <<< 8 ||| zext16 (z.extractLsb' 0 8) = z := by
  ext i hi
  by_cases h : i < 8
  · simp [zext16, hi, h]
  · simp [zext16, hi, h, show i - 8 < 8 by omega, show 8 + (i - 8) = i by omega]

theorem fieldBytes_bigEndian_iff {z : Word16} {x y : Byte} :
    fieldBytes .bigEndian z = [x, y] ↔ z = fieldValue .bigEndian x y := by
  constructor
  · rintro ⟨⟩; exact (join_extractLsb' z).symm
  · rintro rfl; simp [fieldBytes, fieldValue, extractLsb'_low_join, extractLsb'_high_join]

/-- The two bytes written for a value are those that read back as it, in either byte order. -/
theorem fieldBytes_eq_iff {o : ByteOrder} {z : Word16} {x y : Byte} :
    fieldBytes o z = [x, y] ↔ z = fieldValue o x y := by
  cases o with
  | bigEndian => exact fieldBytes_bigEndian_iff
  | littleEndian =>
    have hswap : fieldBytes .littleEndian z = [x, y] ↔ fieldBytes .bigEndian z = [y, x] := by
      simp [fieldBytes, and_comm]
    rw [hswap, fieldBytes_bigEndian_iff, fieldValue, fieldValue, BitVec.or_comm]

theorem exists_fieldBytes_eq (o : ByteOrder) (z : Word16) : ∃ x y, fieldBytes o z = [x, y] := by
  cases o <;> exact ⟨_, _, rfl⟩

/-- The checksum is a function of the covered bytes (R130). -/
theorem crcFor_congr {b b' : List Byte} {n : Nat} (h : covered b n = covered b' n) (c : Config) (v : Variant) :
    crcFor c v b n = crcFor c v b' n := by
  unfold crcFor crcOf
  cases (descriptor c v).crc with
  | legacySum => simp only [crcLegacy, h]
  | modernCrc => simp only [crcModern, h]

/-- The field stands in the last two bytes (R133). -/
theorem ckField_append (c : Config) (v : Variant) (body : List Byte) (x y : Byte) :
    ckField c v (body ++ [x, y]) (body.length + 2) = fieldValue (descriptor c v).ckOrder x y := by
  simp [ckField, byteAt]

/-- A message confirms exactly when its last two bytes are the field of its checksum (R134). -/
theorem ckValid_append_iff {c : Config} {v : Variant} {body : List Byte} {x y : Byte} :
    ckValid c v (body ++ [x, y]) (body.length + 2) = true ↔
      fieldBytes (descriptor c v).ckOrder (crcFor c v body (body.length + 2)) = [x, y] := by
  have hcrc : crcFor c v (body ++ [x, y]) (body.length + 2) = crcFor c v body (body.length + 2) :=
    crcFor_congr (by simp [covered]) c v
  simp [ckValid, hcrc, ckField_append, fieldBytes_eq_iff]

/-! ## Words that fit a pattern (R112) -/

theorem zipWith_and_replicate (w : List Byte) (k : Byte) :
    List.zipWith (· &&& ·) w (List.replicate w.length k) = w.map (· &&& k) := by
  induction w with
  | nil => rfl
  | cons x w ih => simp [List.replicate_succ, ih]

/-- The one word that fits a literal's pattern is the literal (R92). -/
theorem fits_literal_iff {m w : List Byte} : fits (literal m) w = true ↔ w = m := by
  have hmask (b : List Byte) : List.zipWith (· &&& ·) b (List.replicate b.length 0xFF) = b := by
    rw [zipWith_and_replicate]
    exact (List.map_congr_left fun x _ => BitVec.and_allOnes).trans (List.map_id b)
  simp only [fits, literal, Bool.and_eq_true, beq_iff_eq]
  constructor
  · rintro ⟨hlen, hw⟩; rwa [← hlen, hmask] at hw
  · rintro rfl; exact ⟨rfl, hmask w⟩

/-- A word fits a frame pattern when it has 16 bytes, opens with the start byte and has the pattern's polarity bit. -/
theorem fits_framePattern_iff {t : Byte} {w : List Byte} :
    fits (framePattern t) w = true ↔
      ∃ y rest, w = startByte :: y :: rest ∧ rest.length = 14 ∧ y &&& 0x80 = t := by
  have hmask {b : List Byte} (hb : b.length = 14) :
      List.zipWith (· &&& ·) b (List.replicate 14 0) = List.replicate 14 0 := by
    rw [← hb, zipWith_and_replicate]; simp
  simp only [fits, framePattern, Bool.and_eq_true, beq_iff_eq]
  constructor
  · rintro ⟨hlen, hw⟩
    match w, hlen, hw with
    | x :: y :: rest, hlen, hw =>
      have hrest : rest.length = 14 := by simpa using hlen
      simp only [List.zipWith_cons_cons, hmask hrest, List.cons.injEq, and_true] at hw
      obtain ⟨hx, hy⟩ := hw
      have hx' : x = startByte := BitVec.and_allOnes.symm.trans hx
      exact ⟨y, rest, by rw [hx'], hrest, hy⟩
  · rintro ⟨y, rest, rfl, hrest, rfl⟩
    refine ⟨by simp [hrest], ?_⟩
    rw [List.zipWith_cons_cons, List.zipWith_cons_cons, hmask hrest]
    rfl

/-! ## Data frames (R95, R99, R100) -/

/-- The polarity bit in its place, which is the match of the variant's pattern under mask 80. -/
def polarityBit : Variant → Byte
  | .legacy => 0x00
  | .modern => 0x80

/-- Byte 1 of a data frame: the polarity bit and the tag bits 6:0. -/
def tagByte (v : Variant) (tag : BitVec 7) : Byte := polarityBit v ||| tag.setWidth 8

theorem tagByte_and_mask (v : Variant) (tag : BitVec 7) : tagByte v tag &&& 0x80 = polarityBit v := by
  cases v <;> decide +revert

theorem tagByte_tag (v : Variant) (tag : BitVec 7) : (tagByte v tag).extractLsb' 0 7 = tag := by
  cases v <;> decide +revert

theorem tagByte_extractLsb' {v : Variant} {y : Byte} (h : y &&& 0x80 = polarityBit v) :
    tagByte v (y.extractLsb' 0 7) = y := by
  cases v <;> decide +revert

theorem frameBody_eq (c : Config) (v : Variant) (tag : BitVec 7) (p : List Byte) :
    frameBody c v tag p = startByte :: tagByte v tag :: p := by
  have hbyte : (BitVec.ofBool (decide (v = .modern)) ++ tag : BitVec 8) = tagByte v tag := by
    cases v <;> decide +revert
  rw [frameBody, descriptor_start, descriptor_pol, hbyte]
  rfl

section
variable {c : Config} {v : Variant} {tag : BitVec 7} {p : List Byte}

/-- A frame's 16 bytes: start byte, tag byte, payload and a field that confirms. -/
theorem frameBytes_eq_iff (hp : p.length = 12) {x y : Byte} :
    frameBytes c v tag p = startByte :: tagByte v tag :: (p ++ [x, y]) ↔
      ckValid c v (startByte :: tagByte v tag :: (p ++ [x, y])) frameLen = true := by
  have hlen : (startByte :: tagByte v tag :: p).length + 2 = frameLen := by simp [hp, frameLen]
  have hck := ckValid_append_iff (c := c) (v := v) (body := startByte :: tagByte v tag :: p) (x := x) (y := y)
  rw [hlen] at hck
  rw [← List.cons_append, ← List.cons_append, hck, frameBytes, frameBody_eq, hlen]
  exact List.append_right_inj _

/-- The bytes of a frame with its field as two bytes, and that it confirms. -/
theorem frameBytes_eq_cons (c : Config) (v : Variant) (tag : BitVec 7) (hp : p.length = 12) :
    ∃ x y, frameBytes c v tag p = startByte :: tagByte v tag :: (p ++ [x, y]) ∧
      ckValid c v (startByte :: tagByte v tag :: (p ++ [x, y])) frameLen = true := by
  obtain ⟨x, y, hxy⟩ := exists_fieldBytes_eq (descriptor c v).ckOrder
    (crcFor c v (frameBody c v tag p) ((frameBody c v tag p).length + 2))
  have heq : frameBytes c v tag p = startByte :: tagByte v tag :: (p ++ [x, y]) := by
    rw [frameBytes, hxy, frameBody_eq]; rfl
  exact ⟨x, y, heq, (frameBytes_eq_iff hp).1 heq⟩

theorem fits_framePattern_frameBytes (hp : p.length = 12) {t : Byte} :
    fits (framePattern t) (frameBytes c v tag p) = true ↔ polarityBit v = t := by
  obtain ⟨x, y, heq, _⟩ := frameBytes_eq_cons c v tag hp
  rw [heq, fits_framePattern_iff]
  constructor
  · rintro ⟨_, _, ⟨⟩, _, ht⟩; rwa [tagByte_and_mask] at ht
  · rintro rfl; exact ⟨_, _, rfl, by simp [hp], tagByte_and_mask v tag⟩

theorem ckValid_frameBytes (hp : p.length = 12) : ckValid c v (frameBytes c v tag p) frameLen = true := by
  obtain ⟨x, y, heq, hck⟩ := frameBytes_eq_cons c v tag hp
  rwa [heq]

theorem tagOf_frameBytes (hp : p.length = 12) : tagOf (frameBytes c v tag p) = tag := by
  obtain ⟨x, y, heq, _⟩ := frameBytes_eq_cons c v tag hp
  rw [heq]
  exact tagByte_tag v tag

theorem payloadOf_frameBytes (hp : p.length = 12) : payloadOf (frameBytes c v tag p) = p := by
  obtain ⟨x, y, heq, _⟩ := frameBytes_eq_cons c v tag hp
  rw [heq]
  simp [payloadOf, ← hp]

theorem not_fits_literal_frameBytes (hp : p.length = 12) {m : List Byte} (hm : m.head? ≠ some startByte) :
    fits (literal m) (frameBytes c v tag p) = false := by
  obtain ⟨x, y, heq, _⟩ := frameBytes_eq_cons c v tag hp
  rw [Bool.eq_false_iff, heq, ne_eq, fits_literal_iff]
  rintro rfl
  exact hm rfl

end

/-- The words that fit a variant's frame pattern and confirm are the frames the encoder writes. -/
theorem exists_eq_frameBytes {c : Config} {v : Variant} {w : List Byte}
    (hfits : fits (framePattern (polarityBit v)) w = true) (hck : ckValid c v w frameLen = true) :
    ∃ tag p, p.length = 12 ∧ w = frameBytes c v tag p := by
  obtain ⟨t, rest, rfl, hrest, ht⟩ := fits_framePattern_iff.1 hfits
  have hp : (rest.take 12).length = 12 := by simp [hrest]
  obtain ⟨x, y, hxy⟩ : ∃ x y, rest.drop 12 = [x, y] := List.length_eq_two.1 (by simp [hrest])
  have hw : startByte :: t :: rest = startByte :: tagByte v (t.extractLsb' 0 7) :: (rest.take 12 ++ [x, y]) := by
    rw [tagByte_extractLsb' ht, ← hxy, List.take_append_drop]
  refine ⟨_, _, hp, hw.trans ((frameBytes_eq_iff hp).2 ?_).symm⟩
  rwa [← hw]

end Sys2Proof.Machine
end

section
/-! SUPPORT. What the decoder gives for the words of the encoder, and of which words it gives an instruction
(30_encoding.md R107 to R112). -/

namespace Sys2Proof.Machine

open Sys2Proof

/-! ## Operations (R107) -/

theorem decode_operation {x : Byte} (h : x.toNat < 8) (c : Config) (l : Nat) (rest : List Byte) :
    decode c l (x :: rest) = decodeOp l x.toNat rest := if_pos h

theorem decode_message {x : Byte} (h : ¬ x.toNat < 8) (c : Config) (l : Nat) (rest : List Byte) :
    decode c l (x :: rest) = decodeMessage c l (x :: rest) := if_neg h

theorem decodeOp_reserved {code : Nat} (h : 5 ≤ code) (l : Nat) (rest : List Byte) :
    decodeOp l code rest = .error (.reservedOp code) := by
  obtain ⟨k, rfl⟩ := Nat.exists_eq_add_of_le' h
  rfl

/-! ## Data frames (R99, R100) -/

/-- The instruction of a data frame of a variant. -/
def frameInstr : Variant → Nat → BitVec 7 → List Byte → Instr
  | .legacy => .legacyFrame
  | .modern => .modernFrame

theorem decodeFrame_frameBytes {c : Config} {v : Variant} {tag : BitVec 7} {p : List Byte} (hp : p.length = 12)
    (l : Nat) :
    decodeFrame c v (frameBytes c v tag p)
      (frameInstr v l (tagOf (frameBytes c v tag p)) (payloadOf (frameBytes c v tag p))) =
        .ok (frameInstr v l tag p) := by
  rw [decodeFrame, if_pos (ckValid_frameBytes hp), tagOf_frameBytes hp, payloadOf_frameBytes hp]

/-- A frame decodes to its instruction: it is no request literal, and of the two patterns it fits its variant's
alone. -/
theorem decode_frameBytes {p : List Byte} (hp : p.length = 12) (c : Config) (l : Nat) (v : Variant) (tag : BitVec 7) :
    decode c l (frameBytes c v tag p) = .ok (frameInstr v l tag p) := by
  have hmsg : decode c l (frameBytes c v tag p) = decodeMessage c l (frameBytes c v tag p) := by
    obtain ⟨x, y, heq, _⟩ := frameBytes_eq_cons c v tag hp
    rw [heq]
    exact decode_message (by decide) c l _
  have hfits (t : Byte) : fits (framePattern t) (frameBytes c v tag p) = decide (polarityBit v = t) :=
    Bool.eq_iff_iff.2 ((fits_framePattern_frameBytes hp).trans decide_eq_true_iff.symm)
  rw [hmsg, decodeMessage, not_fits_literal_frameBytes hp (by decide), not_fits_literal_frameBytes hp (by decide),
    legacyFramePattern, modernFramePattern, hfits, hfits]
  cases v with
  | legacy => exact decodeFrame_frameBytes (v := .legacy) hp l
  | modern => exact decodeFrame_frameBytes (v := .modern) hp l

/-! ## The words the decoder accepts -/

theorem bare_ok_rest {code : Nat} {rest : List Byte} {i j : Instr} (h : bare code rest i = .ok j) : rest = [] := by
  unfold bare at h
  split at h
  · assumption
  · cases h

/-- Beside link operand `l` the word `w` stands for `i`: it is the encoder's word of `i`, whose link operand is `l` if
it has one, and whose operands are in range if `l` is. -/
structure WordOf (c : Config) (l : Nat) (w : List Byte) (i : Instr) : Prop where
  word : encode c i = some w
  link : linkArg i = some l ∨ linkArg i = none
  wf : linkOk c l = true → i.wellFormed c = true

theorem decodeOp_wordOf {l code : Nat} {rest : List Byte} {i : Instr} (h : decodeOp l code rest = .ok i) (c : Config) :
    WordOf c l (BitVec.ofNat 8 code :: rest) i := by
  unfold decodeOp at h
  split at h
  · obtain rfl := bare_ok h; obtain rfl := bare_ok_rest h; exact ⟨rfl, .inr rfl, fun _ => rfl⟩
  · cases h; exact ⟨rfl, .inl rfl, id⟩
  · obtain rfl := bare_ok h; obtain rfl := bare_ok_rest h; exact ⟨rfl, .inr rfl, fun _ => rfl⟩
  · obtain rfl := bare_ok h; obtain rfl := bare_ok_rest h; exact ⟨rfl, .inl rfl, id⟩
  · obtain rfl := bare_ok h; obtain rfl := bare_ok_rest h; exact ⟨rfl, .inl rfl, id⟩
  · cases h

theorem frameInstr_wordOf {p : List Byte} (hp : p.length = 12) (c : Config) (l : Nat) (v : Variant) (tag : BitVec 7) :
    WordOf c l (frameBytes c v tag p) (frameInstr v l tag p) := by
  have hwf (h : linkOk c l = true) : (linkOk c l && payloadOk p) = true := by simp [h, payloadOk, hp]
  cases v <;> exact ⟨rfl, .inl rfl, hwf⟩

theorem decodeFrame_wordOf {c : Config} {l : Nat} {v : Variant} {w : List Byte} {i : Instr}
    (hfits : fits (framePattern (polarityBit v)) w = true)
    (h : decodeFrame c v w (frameInstr v l (tagOf w) (payloadOf w)) = .ok i) : WordOf c l w i := by
  obtain rfl := decodeFrame_ok h
  unfold decodeFrame at h
  split at h
  · rename_i hck
    obtain ⟨tag, p, hp, rfl⟩ := exists_eq_frameBytes hfits hck
    rw [tagOf_frameBytes hp, payloadOf_frameBytes hp]
    exact frameInstr_wordOf hp c l v tag
  · cases h

theorem literal_wordOf {c : Config} {l : Nat} {m w : List Byte} {i j : Instr} (hfits : fits (literal m) w = true)
    (h : (.ok i : Except Refusal Instr) = .ok j) (hword : encode c i = some m) (hlink : linkArg i = some l)
    (hwf : i.wellFormed c = linkOk c l) : WordOf c l w j := by
  cases h
  obtain rfl := fits_literal_iff.1 hfits
  exact ⟨hword, .inl hlink, hwf.trans⟩

theorem decodeMessage_wordOf {c : Config} {l : Nat} {w : List Byte} {i : Instr} (h : decodeMessage c l w = .ok i) :
    WordOf c l w i := by
  unfold decodeMessage at h
  split_ifs at h with hreqL hreqM hfrL hfrM
  · exact literal_wordOf hreqL h rfl rfl rfl
  · exact literal_wordOf hreqM h rfl rfl rfl
  · exact decodeFrame_wordOf (v := .legacy) hfrL h
  · exact decodeFrame_wordOf (v := .modern) hfrM h
  all_goals exact literal_wordOf ‹_› h rfl rfl rfl

theorem decode_wordOf {c : Config} {l : Nat} {w : List Byte} {i : Instr} (h : decode c l w = .ok i) :
    WordOf c l w i := by
  cases w with
  | nil => exact decodeMessage_wordOf h
  | cons x rest =>
    by_cases hx : x.toNat < 8
    · rw [decode_operation hx] at h
      simpa using decodeOp_wordOf h c
    · rw [decode_message hx] at h
      exact decodeMessage_wordOf h

end Sys2Proof.Machine
end

section
/-! SUPPORT. A step by what the oldest request decodes to (R110), and the wire messages as instructions: an arrival is
an INGEST (R298), an emission a `tx` (R259). -/

namespace Sys2Proof.Machine

open Sys2Proof

/-! ## The step -/

theorem step_idle {s : State} (h : s.pending = []) : step s = .next s := by simp [step, h]

theorem step_decoded {s : State} {r : Request} {rest : List Request} {i : Instr} (hp : s.pending = r :: rest)
    (hd : decode s.cfg r.link r.word = .ok i) : step s = exec i (s.accepting r rest) := by
  simp [step, hp, hd]

theorem step_refused {s : State} {r : Request} {rest : List Request} {e : Refusal} (hp : s.pending = r :: rest)
    (hd : decode s.cfg r.link r.word = .error e) : step s = .refused e := by
  simp [step, hp, hd]

/-! ## Arrivals -/

/-- The idle reset leaves the buffer INGEST appends to (R253). -/
theorem idleReset_eq (c : Config) (now : Nat) (L : Link) :
    idleReset c now L = { L with buf := freshBuffer c now L } := by
  simp only [idleReset, freshBuffer, List.length_pos_iff]
  split <;> rfl

/-- An operation that raised one kind and delivered nothing wrote the link's registers and the event. -/
theorem State.commit_raise (s : State) (l : Nat) (L : Link) (d : Bool) (k : ErrKind) :
    s.commit l (Work.raise k { link := L, frames := [], errs := [], discarded := d }) =
      { s.setLink l L with errOut := (s.setLink l L).errOut ++ [errEvent l k] } := by
  simp [State.commit, State.addErrs]

/-- A message arriving on a link the block has is an INGEST of its bytes as R252 and R253 describe it. -/
theorem receive_eq {s : State} {l : Nat} {L : Link} (h : s.link? l = .some L) (m : List Byte) :
    receive l s m = .next (s.ingested l L m) := by
  have hlen : (fitting s.cfg s.now L m).length < m.length ↔
      0 < m.length - (s.cfg.bufCap - (freshBuffer s.cfg s.now L).length) := by
    simp only [fitting, List.length_take]; omega
  rw [receive, onLink_eq _ h]
  simp only [ingest, Work.start_link, idleReset_eq, appendAll_eq, State.ingested, hlen]
  split
  · exact congrArg _ (State.commit_raise s l _ false .bufferOverflow)
  · exact congrArg _ (State.commit_regs s l _ false)

theorem exec_frameInstr (v : Variant) (l : Nat) (tag : BitVec 7) (p : List Byte) (s : State) :
    exec (frameInstr v l tag p) s = receive l s (frameBytes s.cfg v tag p) := by
  cases v <;> rfl

/-- A data frame arrives as an INGEST of its 16 bytes, whose field holds their checksum (R95, R99, R100). -/
theorem exec_frameInstr_eq {s : State} {l : Nat} {L : Link} {p : List Byte} (h : s.link? l = .some L)
    (hp : p.length = 12) (v : Variant) (tag : BitVec 7) :
    ∃ x y, crcFor s.cfg v (startByte :: tagByte v tag :: (p ++ [x, y])) 16 =
          fieldValue (descriptor s.cfg v).ckOrder x y ∧
        exec (frameInstr v l tag p) s =
          .next (s.ingested l L (startByte :: tagByte v tag :: (p ++ [x, y]))) := by
  obtain ⟨x, y, heq, hck⟩ := frameBytes_eq_cons s.cfg v tag hp
  have hfield : ckField s.cfg v (startByte :: tagByte v tag :: (p ++ [x, y])) 16 =
      fieldValue (descriptor s.cfg v).ckOrder x y := by
    simpa [hp] using ckField_append s.cfg v (startByte :: tagByte v tag :: p) x y
  refine ⟨x, y, (beq_iff_eq.1 hck).trans hfield, ?_⟩
  rw [exec_frameInstr, heq, receive_eq h]

/-! ## Emissions -/

theorem emit_eq {s : State} {l : Nat} {L : Link} (h : s.link? l = .some L) (m : List Byte) :
    emit l s m = .next (s.setLink l { L with txq := enqueue s.cfg L.txq m }) := onRegs_eq _ h

/-- The empty message changes nothing (R105). -/
theorem emit_nil {s : State} {l : Nat} {L : Link} (h : s.link? l = .some L) : emit l s [] = .next s := by
  rw [emit_eq h, enqueue_nil]
  exact congrArg _ (State.setLink_self h)

theorem enqueue_length_le {c : Config} {n : Nat} {q : List Byte} (hc : c.txqCap = .some n) (hq : q.length ≤ n)
    (m : List Byte) : (enqueue c q m).length ≤ n := by
  simpa [queueOk, hc] using enqueue_queueOk (c := c) (q := q) m (by simpa [queueOk, hc] using hq)

end Sys2Proof.Machine
end

section
/-! The statements about the encoding (30_encoding.md). -/

namespace Sys2Proof.Machine

open Sys2Proof

/-- Settles O1: a frame decodes by its pattern and its checksum; the other words are constants but for the data of
INGEST, on which the decoder computes, and an internal operation has no word (R112). -/
theorem decodeEncodeAgree : Obligations.DecodeEncodeAgree := by
  intro c i w hwf hw
  have hlen {l : Nat} {p : List Byte} (h : (linkOk c l && payloadOk p) = true) : p.length = 12 :=
    beq_iff_eq.1 (Bool.and_eq_true_iff.1 h).2
  cases i with
  | legacyFrame l tag p => cases hw; exact decode_frameBytes (hlen hwf) c l .legacy tag
  | modernFrame l tag p => cases hw; exact decode_frameBytes (hlen hwf) c l .modern tag
  | _ => cases hw <;> rfl

/-- Settles O2, by what each branch of the decoder accepts. -/
theorem decodedWordsAreEncodings : Obligations.DecodedWordsAreEncodings := by
  intro c l w i h
  obtain ⟨hword, hlink, hwf⟩ := decode_wordOf h
  exact ⟨hword, hlink, hwf⟩

/-- Settles O23: `exec_frameInstr_eq` for each variant, the legacy field big-endian. -/
theorem dataFramesArrive : Obligations.DataFramesArrive := by
  intro s l L tag p hL hp hbig
  obtain ⟨x, y, hcrc, hexec⟩ := exec_frameInstr_eq hL hp .legacy tag
  obtain ⟨x', y', hcrc', hexec'⟩ := exec_frameInstr_eq hL hp .modern tag
  have horder : (descriptor s.cfg .legacy).ckOrder = .bigEndian := if_pos hbig
  have htag : tagByte .legacy tag = tag.setWidth 8 := BitVec.zero_or
  rw [horder, htag] at hcrc
  rw [htag] at hexec
  exact ⟨⟨x, y, by simp [hp], hcrc, hexec⟩, x', y', by simp [hp], hcrc', hexec'⟩

/-- Settles O3: each word is the encoder's word of its instruction, which decodes to it by O1. -/
theorem knownWordsDecode : Obligations.KnownWordsDecode :=
  ⟨decodeEncodeAgree _ (.legacyHsReq 1) _ rfl rfl, decodeEncodeAgree _ (.modernHsReq 2) _ rfl rfl,
    decodeEncodeAgree _ (.legacyFrame 1 1 _) _ rfl rfl,
    decodeEncodeAgree _ (.modernFrame 1 0 _) _ rfl (by decide +kernel),
    decodeEncodeAgree _ (.legacyPeriodicReq 1) _ rfl rfl⟩

/-- Settles O4: the codes 0 to 4 are arms of `decodeOp`, and the codes above them its last. -/
theorem operationCodesDecode : Obligations.OperationCodesDecode := by
  intro c l
  refine ⟨rfl, fun _ => rfl, rfl, rfl, rfl, fun x rest hlo hhi => ?_⟩
  rw [decode_operation (by omega), decodeOp_reserved hlo]

/-- Settles O5, by the three equations of `step`. -/
theorem stepRunsDecodedRequest : Obligations.StepRunsDecodedRequest :=
  fun _ => ⟨step_idle, fun _ _ _ => step_decoded, fun _ _ _ => step_refused⟩

/-- Settles O22: both literals arrive through `receive`. -/
theorem handshakeRequestsArrive : Obligations.HandshakeRequestsArrive :=
  fun _ _ _ h => ⟨receive_eq h legacyHsReqBytes, receive_eq h modernHsReqBytes⟩

/-- Settles O24: the laws of `enqueue`, and each literal's emission. -/
theorem literalsAreEmitted : Obligations.LiteralsAreEmitted := by
  refine ⟨fun c q m => ⟨?_, fun n hc hq => enqueue_length_le hc hq m⟩, fun s l L h =>
    ⟨emit_eq h legacyHsRspBytes, emit_eq h legacyPeriodicReqBytes, emit_eq h modernHsRspBytes, emit_nil h⟩⟩
  rintro (hc | ⟨n, hc, hroom⟩)
  · exact enqueue_unbounded hc q m
  · exact enqueue_room hc hroom

end Sys2Proof.Machine
end

section
/-! SUPPORT. The CRC Engine (40_crc_engine.md): its instructions as operations on a message, the values of its
functions, and what one changed byte does to them. -/

namespace Sys2Proof.Machine

open Sys2Proof

/-! ## The instructions (R131 to R134) -/

theorem exec_crcLegacy (b : List Byte) (n : Nat) (s : State) :
    exec (.crcLegacy b n) s = onMessage b n s (.word (crcLegacy b n)) := rfl

theorem exec_crcModern (b : List Byte) (n : Nat) (s : State) :
    exec (.crcModern b n) s = onMessage b n s (.word (crcModern b n)) := rfl

theorem exec_ckField (v : Variant) (b : List Byte) (n : Nat) (s : State) :
    exec (.ckField v b n) s = onMessage b n s (.word (ckField s.cfg v b n)) := rfl

theorem exec_ckValid (v : Variant) (b : List Byte) (n : Nat) (s : State) :
    exec (.ckValid v b n) s = onMessage b n s (.flag (ckValid s.cfg v b n)) := rfl

theorem ckValid_iff {c : Config} {v : Variant} {b : List Byte} {n : Nat} :
    ckValid c v b n = true ↔ crcFor c v b n = ckField c v b n := beq_iff_eq

/-! ## The legacy sum (R131) -/

theorem sumBytes_eq (s : Word16) (xs : List Byte) :
    sumBytes s xs = s + BitVec.ofNat 16 (xs.map BitVec.toNat).sum := by
  induction xs generalizing s with
  | nil => simp [sumBytes]
  | cons x xs ih =>
    rw [sumBytes, ih, List.map_cons, List.sum_cons, BitVec.ofNat_add, zext16, ← BitVec.ofNat_toNat, BitVec.add_assoc]

theorem crcLegacy_eq (b : List Byte) (n : Nat) :
    crcLegacy b n = BitVec.ofNat 16 (((covered b n).map BitVec.toNat).sum % 2 ^ 16) := by
  rw [crcLegacy, sumBytes_eq, zero_add, ← BitVec.toNat_ofNat, BitVec.ofNat_toNat, BitVec.setWidth_eq]

/-- Bytes are below 2^16, so two that differ still differ modulo 2^16. -/
theorem zext16_injective : Function.Injective zext16 := by
  intro x y h
  have hnat : x.toNat % 2 ^ 16 = y.toNat % 2 ^ 16 := by simpa [zext16] using congrArg BitVec.toNat h
  bv_omega

theorem sumBytes_ne (s : Word16) (p q : List Byte) {x y : Byte} (h : x ≠ y) :
    sumBytes s (p ++ x :: q) ≠ sumBytes s (p ++ y :: q) := by
  intro heq
  simp only [sumBytes_eq, List.map_append, List.map_cons, List.sum_append, List.sum_cons, BitVec.ofNat_add,
    BitVec.add_right_inj, BitVec.add_left_inj, BitVec.ofNat_toNat] at heq
  exact h (zext16_injective heq)

/-! ## The modern register (R132) -/

theorem crcByte_eq_foldl (r : Word16) (x : Byte) :
    crcByte r x = (List.range 8).foldl (fun r _ => crcShift r) (r ^^^ zext16 x) := by
  rw [List.foldl_const, List.length_range, crcByte]

theorem crcBytes_eq_foldl (r : Word16) (xs : List Byte) : crcBytes r xs = xs.foldl crcByte r := by
  induction xs generalizing r with
  | nil => rfl
  | cons x xs ih => exact ih (crcByte r x)

/-- The polynomial's bit 15 records the bit an iteration shifts out. -/
theorem crcShift_getLsbD_high (r : Word16) : (crcShift r).getLsbD 15 = r.getLsbD 0 := by
  unfold crcShift
  split
  next h => simp [h]
  next h => simpa using h

/-- An iteration loses nothing: the bit shifted out is in bit 15, the others were shifted. -/
theorem crcShift_injective : Function.Injective crcShift := by
  intro r r' h
  have hlow : r.getLsbD 0 = r'.getLsbD 0 := by
    rw [← crcShift_getLsbD_high, h, crcShift_getLsbD_high]
  have hshift : r >>> 1 = r' >>> 1 := by
    unfold crcShift at h
    rw [hlow] at h
    split at h
    · exact (BitVec.xor_left_inj _).1 h
    · exact h
  refine BitVec.eq_of_getLsbD_eq fun i _ => ?_
  cases i with
  | zero => exact hlow
  | succ i => simpa [Nat.add_comm] using congrArg (·.getLsbD i) hshift

theorem crcByte_left_injective (x : Byte) : Function.Injective (crcByte · x) := by
  intro r r' h
  exact (BitVec.xor_left_inj _).1 (crcShift_injective.iterate 8 h)

theorem crcByte_right_injective (r : Word16) : Function.Injective (crcByte r) := by
  intro x y h
  exact zext16_injective ((BitVec.xor_right_inj _).1 (crcShift_injective.iterate 8 h))

/-- Registers that differ before some bytes differ after them. -/
theorem crcBytes_injective (xs : List Byte) : Function.Injective (crcBytes · xs) := by
  induction xs with
  | nil => exact fun _ _ h => h
  | cons x xs ih => exact fun _ _ h => crcByte_left_injective x (ih h)

theorem crcBytes_ne (r : Word16) (p q : List Byte) {x y : Byte} (h : x ≠ y) :
    crcBytes r (p ++ x :: q) ≠ crcBytes r (p ++ y :: q) := by
  intro heq
  have hsplit (z : Byte) : crcBytes r (p ++ z :: q) = crcBytes (crcByte (crcBytes r p) z) q := by
    simp only [crcBytes_eq_foldl, List.foldl_append, List.foldl_cons]
  rw [hsplit, hsplit] at heq
  exact h (crcByte_right_injective _ (crcBytes_injective q heq))

/-! ## The field (R133) -/

theorem join_eq_ofNat (x y : Byte) :
    zext16 x <<< 8 ||| zext16 y = BitVec.ofNat 16 (256 * x.toNat + y.toNat) := by
  have hx : (zext16 x <<< 8).toNat = x.toNat <<< 8 := by
    simp only [zext16, BitVec.toNat_shiftLeft, BitVec.toNat_setWidth, Nat.shiftLeft_eq]
    omega
  have hy : (zext16 y).toNat = y.toNat := by simp only [zext16, BitVec.toNat_setWidth]; omega
  apply BitVec.eq_of_toNat_eq
  rw [BitVec.toNat_or, hx, hy, ← Nat.shiftLeft_add_eq_or_of_lt y.isLt, Nat.shiftLeft_eq, BitVec.toNat_ofNat]
  omega

theorem fieldValue_bigEndian (x y : Byte) :
    fieldValue .bigEndian x y = BitVec.ofNat 16 (256 * x.toNat + y.toNat) := join_eq_ofNat x y

theorem fieldValue_littleEndian (x y : Byte) :
    fieldValue .littleEndian x y = BitVec.ofNat 16 (x.toNat + 256 * y.toNat) := by
  rw [fieldValue, BitVec.or_comm, join_eq_ofNat, Nat.add_comm]

theorem ckOrder_modern (c : Config) : (descriptor c .modern).ckOrder = .littleEndian := rfl

theorem ckOrder_legacy (c : Config) :
    (descriptor c .legacy).ckOrder = if c.legacyCkBigEndian then .bigEndian else .littleEndian := rfl

/-- An offset inside the sequence holds the byte `byteAt` reads. -/
theorem getElem?_eq_byteAt {b : List Byte} {i : Nat} (h : i < b.length) : b[i]? = some (byteAt b i) := by
  simp [byteAt, h]

/-! ## One flipped bit (R139) -/

theorem xor_twoPow_ne (x : Byte) {k : Nat} (h : k < 8) : x ^^^ BitVec.twoPow 8 k ≠ x := by
  intro heq
  have hbit := congrArg (·.getLsbD k) heq
  simp [h] at hbit

/-- Flipping a covered bit changes one covered byte. -/
theorem covered_flipBit {b : List Byte} {n i k : Nat} (hn : n ≤ b.length) (hi : i < n - 2) (hk : k < 8) :
    ∃ p q x y, x ≠ y ∧ covered (flipBit b i k) n = p ++ x :: q ∧ covered b n = p ++ y :: q := by
  have hlen : i < (covered b n).length := by simp only [covered, List.length_take]; omega
  have hbyte : (covered b n)[i] = byteAt b i := by
    simp [covered, byteAt, show i < b.length by omega]
  refine ⟨(covered b n).take i, (covered b n).drop (i + 1), byteAt b i ^^^ BitVec.twoPow 8 k, byteAt b i,
    xor_twoPow_ne _ hk, ?_, ?_⟩
  · rw [← List.set_eq_take_cons_drop _ hlen, covered, flipBit, List.take_set, covered]
  · simp [← hbyte]

theorem crcLegacy_flipBit_ne {b : List Byte} {n i k : Nat} (hn : n ≤ b.length) (hi : i < n - 2) (hk : k < 8) :
    crcLegacy (flipBit b i k) n ≠ crcLegacy b n := by
  obtain ⟨p, q, x, y, hxy, hflip, hb⟩ := covered_flipBit hn hi hk
  rw [crcLegacy, crcLegacy, hflip, hb]
  exact sumBytes_ne 0 p q hxy

theorem crcModern_flipBit_ne {b : List Byte} {n i k : Nat} (hn : n ≤ b.length) (hi : i < n - 2) (hk : k < 8) :
    crcModern (flipBit b i k) n ≠ crcModern b n := by
  obtain ⟨p, q, x, y, hxy, hflip, hb⟩ := covered_flipBit hn hi hk
  rw [crcModern, crcModern, hflip, hb]
  exact crcBytes_ne crcSeed p q hxy

theorem crcFor_flipBit_ne {b : List Byte} {n i k : Nat} (hn : n ≤ b.length) (hi : i < n - 2) (hk : k < 8)
    (c : Config) (v : Variant) : crcFor c v (flipBit b i k) n ≠ crcFor c v b n := by
  cases v with
  | legacy => exact crcLegacy_flipBit_ne hn hi hk
  | modern => exact crcModern_flipBit_ne hn hi hk

theorem byteAt_flipBit_other {i j : Nat} (h : i ≠ j) (b : List Byte) (k : Nat) :
    byteAt (flipBit b i k) j = byteAt b j := by
  simp [byteAt, flipBit, List.getD_eq_getElem?_getD, List.getElem?_set_ne h]

/-- The field is not covered (R130). -/
theorem ckField_flipBit {n i : Nat} (hi : i < n - 2) (c : Config) (v : Variant) (b : List Byte) (k : Nat) :
    ckField c v (flipBit b i k) n = ckField c v b n := by
  rw [ckField, ckField, byteAt_flipBit_other (by omega), byteAt_flipBit_other (by omega)]

end Sys2Proof.Machine
end

section
/-! The statements about the CRC Engine (40_crc_engine.md). -/

namespace Sys2Proof.Machine

open Sys2Proof

/-- Settles O25: the byte-by-byte sum is the sum of the numbers, and 16 bits hold it modulo 2^16. -/
theorem legacyChecksumIsSum : Obligations.LegacyChecksumIsSum := by
  intro s b n h2 hn
  rw [exec_crcLegacy, onMessage_eq s _ ⟨h2, hn⟩, crcLegacy_eq]
  rfl

/-- Settles O27: the two bytes are inside the sequence, and each byte order gives its number. -/
theorem checksumFieldByteOrder : Obligations.ChecksumFieldByteOrder := by
  intro s b n h2 hn
  refine ⟨byteAt b (n - 2), byteAt b (n - 1), getElem?_eq_byteAt (by omega), getElem?_eq_byteAt (by omega), ?_, ?_⟩
  · rw [exec_ckField, onMessage_eq s _ ⟨h2, hn⟩, ckField, ckOrder_modern, fieldValue_littleEndian]
    rfl
  · rw [exec_ckField, onMessage_eq s _ ⟨h2, hn⟩, ckField, ckOrder_legacy]
    cases s.cfg.legacyCkBigEndian with
    | true => rw [if_pos rfl, fieldValue_bigEndian]; rfl
    | false => rw [if_neg Bool.false_ne_true, fieldValue_littleEndian]; rfl

/-- Settles O30: a flipped covered bit changes one covered byte, which changes either checksum (`sumBytes_ne`,
`crcBytes_ne`), and leaves the field, so computed and stored value no longer agree. -/
theorem singleBitFlipBreaksChecksum : Obligations.SingleBitFlipBreaksChecksum := by
  intro c v b n i k hn hi hk
  refine ⟨crcLegacy_flipBit_ne hn hi hk, crcModern_flipBit_ne hn hi hk, fun hvalid => ?_⟩
  rw [← Bool.not_eq_true, ckValid_iff, ckField_flipBit hi, ← ckValid_iff.1 hvalid]
  exact crcFor_flipBit_ne hn hi hk c v

/-- Settles O26: the loop over the covered bytes is a fold, and its eight iterations are one. -/
theorem modernChecksumIsBitSerial : Obligations.ModernChecksumIsBitSerial := by
  intro s b n h2 hn
  have hbyte : crcByte = fun r x => (List.range 8).foldl (fun r _ => crcShift r) (r ^^^ zext16 x) :=
    funext₂ crcByte_eq_foldl
  rw [exec_crcModern, onMessage_eq s _ ⟨h2, hn⟩, crcModern, crcBytes_eq_foldl, hbyte]
  rfl

/-- Settles O28: what the three instructions of each variant return, CK_VALID being defined as the comparison. -/
theorem checksumValidity : Obligations.ChecksumValidity := by
  intro s b n h2 hn
  have hnext (r : Result) : onMessage b n s r = .next (s.answer r) := onMessage_eq s r ⟨h2, hn⟩
  simp only [exec_crcLegacy, exec_crcModern, exec_ckField, exec_ckValid, hnext]
  exact ⟨⟨_, _, rfl, rfl, rfl⟩, _, _, rfl, rfl, rfl⟩

/-- Settles O29: the four instructions share the length check of `onMessage`. -/
theorem badChecksumLengthRefused : Obligations.BadChecksumLengthRefused := by
  intro s v b n h
  have hrefused (r : Result) : onMessage b n s r = .refused (.badLength b.length n) :=
    onMessage_refused s r (by omega)
  rw [exec_crcLegacy, exec_crcModern, exec_ckField, exec_ckValid]
  exact ⟨hrefused _, hrefused _, hrefused _, hrefused _⟩

end Sys2Proof.Machine
end

section
/-! SUPPORT. The Frame Validator (41_frame_validator.md): its instructions, its four predicates as statements about the
sequence, which of them exclude one another, and CLASSIFY and RESYNC by them. -/

namespace Sys2Proof.Machine

open Sys2Proof

/-! ## The instructions (R151 to R157) -/

theorem exec_hsMatch (v : Variant) (b : List Byte) (s : State) :
    exec (.hsMatch v b) s = .next (s.answer (.flag (hsMatch v b))) := rfl

theorem exec_frameMatch (v : Variant) (b : List Byte) (s : State) :
    exec (.frameMatch v b) s = .next (s.answer (.flag (frameMatch s.cfg v b))) := rfl

theorem exec_hsPending (v : Variant) (b : List Byte) (s : State) :
    exec (.hsPending v b) s = .next (s.answer (.flag (hsPending v b))) := rfl

theorem exec_framePending (v : Variant) (b : List Byte) (s : State) :
    exec (.framePending v b) s = .next (s.answer (.flag (framePending s.cfg v b))) := rfl

theorem exec_classify {b : List Byte} (h : b ≠ []) (V : List Variant) (s : State) :
    exec (.classify b V) s = .next (s.answer (.cls (classify s.cfg b V))) := by
  simp [exec, execClassify, h]

theorem exec_resync {b : List Byte} {V : List Variant} {s : State} (hb : b ≠ [])
    (hV : classify s.cfg b V = .noMatch) : exec (.resync b V) s = .next (s.answer (.count (resync s.cfg b V))) := by
  simp [exec, execResync, hb, hV]

/-! ## The candidate sets (R175) -/

theorem mem_candidates {c : Config} {sel : Option Variant} {v : Variant} :
    v ∈ candidates c sel ↔ sel = none ∨ sel = some v := by
  cases sel with
  | none => cases v <;> simp [candidates, registry, legacyDescriptor, modernDescriptor]
  | some w => simp [candidates, eq_comm]

/-! ## The predicates (R151 to R154) -/

section
variable {c : Config} {v w : Variant} {b : List Byte}

theorem hsMatch_iff : hsMatch v b = true ↔ hsreq v <+: b := by
  simp only [hsMatch, Bool.and_eq_true, decide_eq_true_eq, beq_iff_eq]
  exact ⟨fun ⟨_, htake⟩ => List.prefix_iff_eq_take.2 htake.symm,
    fun h => ⟨h.length_le, (List.prefix_iff_eq_take.1 h).symm⟩⟩

theorem hsPending_iff : hsPending v b = true ↔ b ≠ [] ∧ b.length < (hsreq v).length ∧ b <+: hsreq v := by
  simp only [hsPending, Bool.and_eq_true, decide_eq_true_eq, beq_iff_eq, ← List.prefix_iff_eq_take, and_assoc,
    Nat.one_le_iff_ne_zero, ne_eq, List.length_eq_zero_iff]

theorem polarityOk_iff : polarityOk c v b = true ↔ ((byteAt b 1).getLsbD 7 = true ↔ v = .modern) := by
  rw [polarityOk, descriptor_pol, beq_iff_eq, Bool.eq_iff_iff, decide_eq_true_eq]

theorem frameMatch_iff : frameMatch c v b = true ↔
    16 ≤ b.length ∧ byteAt b 0 = 0xAA ∧ polarityOk c v b = true ∧ ckValid c v (b.take 16) 16 = true := by
  simp only [frameMatch, descriptor_frameLen, descriptor_start, Bool.and_eq_true, decide_eq_true_eq, beq_iff_eq,
    and_assoc]

theorem framePending_iff : framePending c v b = true ↔
    1 ≤ b.length ∧ b.length < 16 ∧ byteAt b 0 = 0xAA ∧ (b.length < 2 ∨ polarityOk c v b = true) := by
  simp only [framePending, descriptor_frameLen, descriptor_start, Bool.and_eq_true, Bool.or_eq_true,
    decide_eq_true_eq, beq_iff_eq, and_assoc]

/-! ## What excludes what (R159) -/

/-- Neither handshake literal opens the other. -/
theorem eq_of_hsreq_prefix (h : hsreq v <+: hsreq w) : v = w := by
  cases v <;> cases w
  case legacy.legacy => rfl
  case modern.modern => rfl
  case legacy.modern => exact absurd h (by decide)
  case modern.legacy => exact absurd h (by decide)

/-- Both literals open with `A`. -/
theorem byteAt_zero_hsreq (v : Variant) : byteAt (hsreq v) 0 = 0x41 := by cases v <;> rfl

theorem byteAt_zero_of_prefix {p q : List Byte} (h : p <+: q) (hp : p ≠ []) : byteAt p 0 = byteAt q 0 := by
  obtain ⟨r, rfl⟩ := h
  cases p with
  | nil => exact absurd rfl hp
  | cons _ _ => rfl

theorem byteAt_zero_of_hsMatch (h : hsMatch v b = true) : byteAt b 0 = 0x41 := by
  rw [← byteAt_zero_of_prefix (hsMatch_iff.1 h) (by cases v <;> decide), byteAt_zero_hsreq]

theorem byteAt_zero_of_hsPending (h : hsPending v b = true) : byteAt b 0 = 0x41 := by
  obtain ⟨hne, _, hprefix⟩ := hsPending_iff.1 h
  rw [byteAt_zero_of_prefix hprefix hne, byteAt_zero_hsreq]

theorem byteAt_zero_of_frameMatch (h : frameMatch c v b = true) : byteAt b 0 = 0xAA := (frameMatch_iff.1 h).2.1

theorem byteAt_zero_of_framePending (h : framePending c v b = true) : byteAt b 0 = 0xAA :=
  (framePending_iff.1 h).2.2.1

/-- Handshakes and frames differ in their first byte. -/
theorem not_opens_both (hhs : byteAt b 0 = 0x41) (hframe : byteAt b 0 = 0xAA) : False :=
  absurd (hhs.symm.trans hframe) (by decide)

theorem hsMatch_unique (hv : hsMatch v b = true) (hw : hsMatch w b = true) : v = w :=
  (List.prefix_or_prefix_of_prefix (hsMatch_iff.1 hv) (hsMatch_iff.1 hw)).elim eq_of_hsreq_prefix
    fun h => (eq_of_hsreq_prefix h).symm

theorem frameMatch_unique (hv : frameMatch c v b = true) (hw : frameMatch c w b = true) : v = w := by
  obtain ⟨_, _, hpv, _⟩ := frameMatch_iff.1 hv
  obtain ⟨_, _, hpw, _⟩ := frameMatch_iff.1 hw
  have hpol : v = .modern ↔ w = .modern := (polarityOk_iff.1 hpv).symm.trans (polarityOk_iff.1 hpw)
  cases v <;> cases w <;> simp_all

theorem not_frameMatch_of_hsMatch (h : hsMatch v b = true) : ¬ frameMatch c w b = true :=
  fun hf => not_opens_both (byteAt_zero_of_hsMatch h) (byteAt_zero_of_frameMatch hf)

/-- A sequence that opens with a whole literal is not the start of a longer one. -/
theorem not_hsPending_of_hsMatch (h : hsMatch v b = true) : ¬ hsPending w b = true := by
  intro hp
  obtain ⟨_, hlen, hprefix⟩ := hsPending_iff.1 hp
  obtain rfl := eq_of_hsreq_prefix ((hsMatch_iff.1 h).trans hprefix)
  exact absurd (hsMatch_length h) (by omega)

theorem not_framePending_of_hsMatch (h : hsMatch v b = true) : ¬ framePending c w b = true :=
  fun hf => not_opens_both (byteAt_zero_of_hsMatch h) (byteAt_zero_of_framePending hf)

theorem not_hsPending_of_frameMatch (h : frameMatch c v b = true) : ¬ hsPending w b = true :=
  fun hp => not_opens_both (byteAt_zero_of_hsPending hp) (byteAt_zero_of_frameMatch h)

theorem not_framePending_of_frameMatch (h : frameMatch c v b = true) : ¬ framePending c w b = true := by
  intro hp
  obtain ⟨_, hlen, _⟩ := framePending_iff.1 hp
  exact absurd (frameMatch_length h) (by omega)

end

/-! ## CLASSIFY (R155) -/

section
variable {c : Config} {v : Variant} {b : List Byte} {V W : List Variant}

theorem firstMatch_eq_none_iff :
    firstMatch c b V = none ↔ ∀ v ∈ V, ¬ hsMatch v b = true ∧ ¬ frameMatch c v b = true := by
  induction V with
  | nil => simp [firstMatch]
  | cons w W ih =>
    rw [firstMatch, List.forall_mem_cons, ← ih]
    split_ifs with hhs hframe
    · simp [hhs]
    · simp [hframe]
    · simp [hhs, hframe]

/-- Where a candidate matches, the class is a match of some candidate. -/
theorem classify_of_match (hv : v ∈ V) (h : hsMatch v b = true ∨ frameMatch c v b = true) :
    ∃ w, (classify c b V = .handshake w ∧ hsMatch w b = true) ∨
      (classify c b V = .frame w ∧ frameMatch c w b = true) := by
  cases hk : firstMatch c b V with
  | none =>
    obtain ⟨hhs, hframe⟩ := firstMatch_eq_none_iff.1 hk v hv
    exact absurd h (not_or.2 ⟨hhs, hframe⟩)
  | some k =>
    have hclass : classify c b V = k := by simp [classify, hk]
    obtain ⟨w, _, hw⟩ := firstMatch_spec hk
    exact ⟨w, hclass ▸ hw⟩

theorem classify_of_no_match (h : ∀ v ∈ V, ¬ hsMatch v b = true ∧ ¬ frameMatch c v b = true) :
    classify c b V =
      if ∃ v ∈ V, hsPending v b = true ∨ framePending c v b = true then .pending else .noMatch := by
  simp [classify, firstMatch_eq_none_iff.2 h]

theorem classify_handshake_iff : classify c b V = .handshake v ↔ v ∈ V ∧ hsMatch v b = true := by
  refine ⟨classify_handshake, fun ⟨hv, hm⟩ => ?_⟩
  obtain ⟨w, ⟨hk, hw⟩ | ⟨_, hw⟩⟩ := classify_of_match (c := c) hv (.inl hm)
  · rw [hk, hsMatch_unique hm hw]
  · exact absurd hw (not_frameMatch_of_hsMatch hm)

theorem classify_frame_iff : classify c b V = .frame v ↔ v ∈ V ∧ frameMatch c v b = true := by
  refine ⟨classify_frame, fun ⟨hv, hm⟩ => ?_⟩
  obtain ⟨w, ⟨_, hw⟩ | ⟨hk, hw⟩⟩ := classify_of_match hv (.inr hm)
  · exact absurd hm (not_frameMatch_of_hsMatch hw)
  · rw [hk, frameMatch_unique hm hw]

theorem no_match_of_classify (h : classify c b V = .pending ∨ classify c b V = .noMatch) (hv : v ∈ V) :
    ¬ hsMatch v b = true ∧ ¬ frameMatch c v b = true := by
  constructor <;> intro hm
  · rw [classify_handshake_iff.2 ⟨hv, hm⟩] at h; simp at h
  · rw [classify_frame_iff.2 ⟨hv, hm⟩] at h; simp at h

theorem classify_pending_iff : classify c b V = .pending ↔
    (∀ v ∈ V, ¬ hsMatch v b = true ∧ ¬ frameMatch c v b = true) ∧
      ∃ v ∈ V, hsPending v b = true ∨ framePending c v b = true := by
  refine ⟨fun h => ⟨fun v hv => no_match_of_classify (.inl h) hv, classify_pending h⟩, fun ⟨hno, hp⟩ => ?_⟩
  rw [classify_of_no_match hno, if_pos hp]

theorem classify_noMatch_iff : classify c b V = .noMatch ↔
    (∀ v ∈ V, ¬ hsMatch v b = true ∧ ¬ frameMatch c v b = true) ∧
      ¬ ∃ v ∈ V, hsPending v b = true ∨ framePending c v b = true := by
  refine ⟨fun h => ⟨fun v hv => no_match_of_classify (.inr h) hv, fun hp => ?_⟩, fun ⟨hno, hp⟩ => ?_⟩
  · rw [classify_pending_iff.2 ⟨fun v hv => no_match_of_classify (.inr h) hv, hp⟩] at h
    cases h
  · rw [classify_of_no_match hno, if_neg hp]

/-- The class depends on which variants are candidates, not on their order (R159). -/
theorem classify_congr (h : ∀ v, v ∈ V ↔ v ∈ W) : classify c b V = classify c b W := by
  symm
  cases hk : classify c b V with
  | handshake v => rwa [classify_handshake_iff, ← h, ← classify_handshake_iff]
  | frame v => rwa [classify_frame_iff, ← h, ← classify_frame_iff]
  | pending => simpa only [classify_pending_iff, h] using hk
  | noMatch => simpa only [classify_noMatch_iff, h] using hk

end

/-! ## RESYNC (R157) -/

/-- The scan stops at the first offset of the rest that does not classify as NoMatch, or at its end. -/
theorem resyncScan_spec (c : Config) (V : List Variant) (xs : List Byte) (k : Nat) :
    ∃ d ≤ xs.length, resyncScan c V xs k = k + d ∧ (∀ j < d, classify c (xs.drop j) V = .noMatch) ∧
      (d < xs.length → classify c (xs.drop d) V ≠ .noMatch) := by
  induction xs generalizing k with
  | nil => exact ⟨0, Nat.le_refl _, rfl, by simp, by simp⟩
  | cons x xs ih =>
    by_cases hx : classify c (x :: xs) V = .noMatch
    · obtain ⟨d, hle, hscan, hbelow, hat⟩ := ih (k + 1)
      refine ⟨d + 1, by simpa using hle, ?_, fun j hj => ?_, by simpa using hat⟩
      · rw [resyncScan, if_neg (not_not.2 hx), hscan]; omega
      · cases j with
        | zero => exact hx
        | succ j => exact hbelow j (by omega)
    · exact ⟨0, Nat.zero_le _, by rw [resyncScan, if_pos hx, Nat.add_zero], by simp, fun _ => hx⟩

/-! ## One flipped bit of a frame (R161) -/

@[simp] theorem flipBit_length (b : List Byte) (i k : Nat) : (flipBit b i k).length = b.length := List.length_set

/-- The start byte is more than one bit away from the first byte of the literals. -/
theorem startByte_xor_twoPow_ne : ∀ k < 8, (0xAA : Byte) ^^^ BitVec.twoPow 8 k ≠ 0x41 := by decide

theorem byteAt_zero_flipBit_ne {b : List Byte} {k : Nat} (h0 : byteAt b 0 = 0xAA) (hb : b ≠ []) (hk : k < 8)
    (i : Nat) : byteAt (flipBit b i k) 0 ≠ 0x41 := by
  by_cases hi : i = 0
  · subst hi
    have hpos := List.length_pos_iff.2 hb
    have hflip : byteAt (flipBit b 0 k) 0 = byteAt b 0 ^^^ BitVec.twoPow 8 k := by
      simp [byteAt, flipBit, hpos]
    rw [hflip, h0]
    exact startByte_xor_twoPow_ne k hk
  · rw [byteAt_flipBit_other hi, h0]
    decide

/-- No predicate of any variant but FRAME_MATCH can hold of 16 bytes that do not open with a literal. -/
theorem classify_noMatch_of_length {c : Config} {b : List Byte} {V : List Variant} (hlen : b.length = 16)
    (h0 : byteAt b 0 ≠ 0x41) (hframe : ∀ v ∈ V, ¬ frameMatch c v b = true) : classify c b V = .noMatch := by
  refine classify_noMatch_iff.2 ⟨fun v hv => ⟨fun hm => h0 (byteAt_zero_of_hsMatch hm), hframe v hv⟩, ?_⟩
  rintro ⟨v, _, hp | hp⟩
  · exact h0 (byteAt_zero_of_hsPending hp)
  · obtain ⟨_, hlt, _⟩ := framePending_iff.1 hp
    omega

theorem not_frameMatch_flipBit {c : Config} {v : Variant} {f : List Byte} {i k : Nat} (hlen : f.length = 16)
    (hf : frameMatch c v f = true) (hi : i < 14) (hk : k < 8) : ¬ frameMatch c v (flipBit f i k) = true := by
  have htake : f.take 16 = f := List.take_of_length_le hlen.le
  have htake' : (flipBit f i k).take 16 = flipBit f i k := List.take_of_length_le (by simp [hlen])
  intro hflip
  obtain ⟨_, _, _, hvalid⟩ := frameMatch_iff.1 hf
  obtain ⟨_, _, _, hvalid'⟩ := frameMatch_iff.1 hflip
  rw [htake] at hvalid
  rw [htake', (singleBitFlipBreaksChecksum c v f 16 i k hlen.ge hi hk).2.2 hvalid] at hvalid'
  cases hvalid'

end Sys2Proof.Machine
end

section
/-! SUPPORT. What reaches the frame stream (R163): the one action that delivers takes the 16 bytes that were classified
as a frame. -/

namespace Sys2Proof.Machine

open Sys2Proof

/-- The frame at the front of a buffer is by itself a frame. -/
theorem frameMatch_take {c : Config} {v : Variant} {b : List Byte} (h : frameMatch c v b = true) :
    frameMatch c v (b.take 16) = true := by
  obtain ⟨hlen, h0, hpol, hvalid⟩ := frameMatch_iff.1 h
  have hbyte (i : Nat) (hi : i < 16) : byteAt (b.take 16) i = byteAt b i := by
    simp [byteAt, List.getD_eq_getElem?_getD, List.getElem?_take_of_lt hi]
  rw [frameMatch_iff, polarityOk_iff, hbyte 0 (by omega), hbyte 1 (by omega), List.take_take]
  exact ⟨by simpa using hlen, h0, polarityOk_iff.1 hpol, hvalid⟩

/-- Each frame an operation on a link has delivered so far is 16 bytes that FRAME_MATCH accepts. -/
def Work.FramesMatch (c : Config) (w : Work) : Prop :=
  ∀ p ∈ w.frames, p.2.length = 16 ∧ frameMatch c p.1 p.2 = true

section
variable {c : Config} {now : Nat} {w : Work}

theorem Work.FramesMatch.of_frames_eq {w' : Work} (h : w.FramesMatch c) (hf : w'.frames = w.frames) :
    w'.FramesMatch c := by
  rw [Work.FramesMatch, hf]; exact h

theorem Work.framesMatch_start (c : Config) (L : Link) : (Work.start L).FramesMatch c := by simp [Work.FramesMatch]

/-! ## The actions that deliver -/

theorem Work.FramesMatch.accept (h : w.FramesMatch c) {v : Variant} (hv : frameMatch c v w.link.buf = true) :
    (accept c now v w).FramesMatch c := by
  rw [Work.FramesMatch, accept_frames]
  refine List.forall_mem_append.2 ⟨h, List.forall_mem_singleton.2 ⟨?_, frameMatch_take hv⟩⟩
  simpa using frameMatch_length hv

theorem Work.FramesMatch.actT4 (h : w.FramesMatch c) {v : Variant} (hv : frameMatch c v w.link.buf = true) :
    (actT4 c now v w).FramesMatch c :=
  Work.FramesMatch.accept (w := w.upd _) h (by simpa using hv)

theorem Work.FramesMatch.actT7 (h : w.FramesMatch c) {v : Variant} (hv : frameMatch c v w.link.buf = true) :
    (actT7 c now v w).FramesMatch c :=
  Work.FramesMatch.accept (w := w.upd _) h (by simpa using hv)

/-! ## The rules run by themselves -/

theorem ruleT4_framesMatch (h : w.FramesMatch c) : (ruleT4 c now w).FramesMatch c := by
  unfold ruleT4
  split
  next hk => exact h.actT4 (classify_frame hk).2
  next => exact h

theorem ruleT7_framesMatch (h : w.FramesMatch c) : (ruleT7 c now w).FramesMatch c := by
  unfold ruleT7
  split
  next hk => exact h.actT7 (classify_frame hk).2
  next => exact h

theorem ruleAccept_framesMatch (h : w.FramesMatch c) : (ruleAccept c now w).FramesMatch c := by
  unfold ruleAccept
  split
  next hk => exact h.accept (classify_frame hk).2
  next => exact h

theorem ruleT3_frames (c : Config) (now : Nat) (w : Work) : (ruleT3 c now w).frames = w.frames := by
  unfold ruleT3; split <;> rfl

theorem ruleT6_frames (c : Config) (w : Work) : (ruleT6 c w).frames = w.frames := by
  unfold ruleT6; split <;> rfl

theorem ruleT10_frames (c : Config) (now : Nat) (w : Work) : (ruleT10 c now w).frames = w.frames := by
  unfold ruleT10; split <;> rfl

theorem ingest_frames (c : Config) (now : Nat) (bytes : List Byte) (w : Work) :
    (ingest c now bytes w).frames = w.frames := by
  unfold ingest; dsimp only; split <;> rfl

/-! ## The tick -/

/-- An iteration delivers at Frame only, and then what was classified so. -/
theorem phaseBStep_framesMatch (h : w.FramesMatch c) : (phaseBStep c now w (classOf c w.link)).1.FramesMatch c := by
  cases hk : classOf c w.link with
  | pending => exact h
  | handshake v =>
    unfold phaseBStep
    dsimp only
    split <;> exact h
  | frame v =>
    have hv := (classify_frame hk).2
    unfold phaseBStep
    dsimp only
    split
    · exact h.actT4 hv
    · exact h.actT7 hv
    · exact h.accept hv
  | noMatch =>
    unfold phaseBStep
    dsimp only
    split <;> exact h

theorem phaseB_framesMatch (fuel : Nat) (h : w.FramesMatch c) : (phaseB c now fuel w).FramesMatch c := by
  induction fuel generalizing w with
  | zero => exact h
  | succ fuel ih =>
    have hstep := phaseBStep_framesMatch (now := now) h
    unfold phaseB
    split
    · exact h
    · split <;> rename_i hw <;> rw [hw] at hstep
      · exact ih hstep
      · exact hstep

theorem phaseC_frames (c : Config) (now : Nat) (startedDisc : Bool) (w : Work) :
    (phaseC c now startedDisc w).frames = w.frames := by
  unfold phaseC; dsimp only; split <;> rfl

theorem processLink_framesMatch (h : w.FramesMatch c) : (processLink c now w).FramesMatch c := by
  have hA := h.of_frames_eq (phaseA_frames c now w)
  unfold processLink
  split <;> rename_i w₁ hw <;> rw [hw] at hA
  · exact hA
  · exact (phaseB_framesMatch (w := { w₁ with discarded := false }) _ hA).of_frames_eq (phaseC_frames _ _ _ _)

end

/-! ## The state -/

/-- From `s` to `t` the parameters stood, and what `frame_out` gained is 16-byte frames that FRAME_MATCH accepts. -/
structure State.DeliveredFrom (s t : State) : Prop where
  cfg : t.cfg = s.cfg
  frames : ∃ fs, t.frameOut = s.frameOut ++ fs ∧
    ∀ e ∈ fs, e.frame.length = 16 ∧ frameMatch s.cfg e.variant e.frame = true

theorem State.DeliveredFrom.of_frameOut_eq {s t : State} (hcfg : t.cfg = s.cfg) (hf : t.frameOut = s.frameOut) :
    s.DeliveredFrom t := ⟨hcfg, [], by simpa using hf, by simp⟩

theorem State.DeliveredFrom.trans {s t u : State} (hst : s.DeliveredFrom t) (htu : t.DeliveredFrom u) :
    s.DeliveredFrom u := by
  obtain ⟨hcfg, fs, hfs, hok⟩ := hst
  obtain ⟨hcfg', gs, hgs, hok'⟩ := htu
  refine ⟨hcfg'.trans hcfg, fs ++ gs, by rw [hgs, hfs, List.append_assoc], List.forall_mem_append.2 ⟨hok, ?_⟩⟩
  rwa [hcfg] at hok'

theorem State.deliveredFrom_commit {s : State} {w : Work} (h : w.FramesMatch s.cfg) (l : Nat) :
    s.DeliveredFrom (s.commit l w) :=
  ⟨State.commit_cfg s l w, _, State.commit_frameOut s l w, List.forall_mem_map.2 h⟩

theorem onLink_deliveredFrom {s t : State} {l : Nat} {f : Config → Nat → Work → Work}
    (hf : ∀ w : Work, w.FramesMatch s.cfg → (f s.cfg s.now w).FramesMatch s.cfg) (ht : onLink l s f = .next t) :
    s.DeliveredFrom t := by
  obtain ⟨L, _, rfl⟩ := onLink_next ht
  exact State.deliveredFrom_commit (hf _ (Work.framesMatch_start _ L)) l

/-- An operation on a link that delivers nothing. -/
theorem onLink_deliveredFrom_of_frames {s t : State} {l : Nat} {f : Config → Nat → Work → Work}
    (hf : ∀ c now w, (f c now w).frames = w.frames) (ht : onLink l s f = .next t) : s.DeliveredFrom t :=
  onLink_deliveredFrom (fun w hw => hw.of_frames_eq (hf s.cfg s.now w)) ht

theorem onRegs_deliveredFrom {s t : State} {l : Nat} {f : Config → Nat → Link → Link}
    (ht : onRegs l s f = .next t) : s.DeliveredFrom t :=
  onLink_deliveredFrom_of_frames (f := fun c now w => w.upd (f c now)) (fun _ _ _ => rfl) ht

theorem receive_deliveredFrom {s t : State} {l : Nat} {m : List Byte} (ht : receive l s m = .next t) :
    s.DeliveredFrom t := onLink_deliveredFrom_of_frames (fun c now w => ingest_frames c now m w) ht

theorem State.deliveredFrom_answer (s : State) (r : Result) : s.DeliveredFrom (s.answer r) :=
  .of_frameOut_eq rfl rfl

theorem onMessage_deliveredFrom {s t : State} {b : List Byte} {n : Nat} {r : Result}
    (ht : onMessage b n s r = .next t) : s.DeliveredFrom t := by
  unfold onMessage at ht
  split at ht <;> cases ht
  exact s.deliveredFrom_answer r

theorem processLinks_deliveredFrom (s : State) (ls : List Nat) : s.DeliveredFrom (processLinks s ls) := by
  induction ls generalizing s with
  | nil => exact .of_frameOut_eq rfl rfl
  | cons l ls ih =>
    refine State.DeliveredFrom.trans ?_ (ih (s.updLink l processLink))
    unfold State.updLink
    split
    · exact .of_frameOut_eq rfl rfl
    · exact State.deliveredFrom_commit (processLink_framesMatch (Work.framesMatch_start _ _)) l

/-- Every instruction but RESET, which empties the stream, only ever appends frames to it. -/
theorem exec_deliveredFrom {i : Instr} {s t : State} (hi : i ≠ .reset) (ht : exec i s = .next t) :
    s.DeliveredFrom t := by
  cases i with
  | reset => exact absurd rfl hi
  | process => cases ht; exact processLinks_deliveredFrom s _
  | processLink => exact onLink_deliveredFrom (fun _ => processLink_framesMatch) ht
  | t4DisconnectedFrame => exact onLink_deliveredFrom (fun _ => ruleT4_framesMatch) ht
  | t7PairingFrame => exact onLink_deliveredFrom (fun _ => ruleT7_framesMatch) ht
  | frameAccept => exact onLink_deliveredFrom (fun _ => ruleAccept_framesMatch) ht
  | t3DisconnectedToError => exact onLink_deliveredFrom_of_frames ruleT3_frames ht
  | t6DisconnectedResync => exact onLink_deliveredFrom_of_frames (fun c _ => ruleT6_frames c) ht
  | t10LinkLost => exact onLink_deliveredFrom_of_frames ruleT10_frames ht
  | legacyHsReq | modernHsReq | legacyFrame | modernFrame | ingest => exact receive_deliveredFrom ht
  | txPop =>
    obtain ⟨L, _, rfl⟩ := execTxPop_next ht
    exact .of_frameOut_eq (by simp) (by simp)
  | readStatus =>
    obtain ⟨L, _, rfl⟩ := execReadStatus_next ht
    exact s.deliveredFrom_answer _
  | crcLegacy | crcModern | ckField | ckValid => exact onMessage_deliveredFrom ht
  | hsMatch | frameMatch | hsPending | framePending | classify | resync =>
    cases ht; exact s.deliveredFrom_answer _
  | _ => exact onRegs_deliveredFrom ht

end Sys2Proof.Machine
end

section
/-! The statements about the Frame Validator (41_frame_validator.md). -/

namespace Sys2Proof.Machine

open Sys2Proof

/-- Settles O18: every instruction delivers through the frame-accept action, on a buffer that opens with a frame. -/
theorem deliveredFramesMatch : Obligations.DeliveredFramesMatch :=
  fun _ _ _ hi ht => (exec_deliveredFrom hi ht).frames

/-- Settles O31: HS_MATCH compares the literal with the start of the sequence, HS_PENDING the sequence with the start of
the literal. -/
theorem handshakePredicates : Obligations.HandshakePredicates := by
  intro s v b
  refine ⟨hsMatch v b, hsPending v b, exec_hsMatch v b s, exec_hsPending v b s, ?_, ?_⟩
  · exact hsMatch_iff.trans (exists_congr fun _ => eq_comm)
  · rw [hsPending_iff]
    refine and_congr_right fun _ => ⟨?_, ?_⟩
    · rintro ⟨hlen, rest, hrest⟩
      refine ⟨rest, ?_, hrest.symm⟩
      rintro rfl
      simp [← hrest] at hlen
    · rintro ⟨rest, hne, hrest⟩
      exact ⟨by simp [hrest, List.length_pos_iff.2 hne], rest, hrest.symm⟩

/-- Settles O32, the fourth conjunct by what CK_VALID answers on 16 bytes. -/
theorem frameMatchConjuncts : Obligations.FrameMatchConjuncts := by
  intro s v b
  refine ⟨frameMatch s.cfg v b, exec_frameMatch v b s, ?_⟩
  have hck (hlen : 16 ≤ b.length) : exec (.ckValid v (b.take 16) 16) s = .next { s with result := .flag true } ↔
      ckValid s.cfg v (b.take 16) 16 = true := by
    rw [exec_ckValid, onMessage_eq s _ ⟨by omega, by simpa using hlen⟩]
    simp [State.answer]
  rw [frameMatch_iff, polarityOk_iff]
  constructor
  · rintro ⟨hlen, h0, hpol, hvalid⟩
    match b, hlen with
    | x :: y :: rest, hlen => exact ⟨x, y, rest, rfl, hlen, h0, hpol, (hck hlen).2 hvalid⟩
  · rintro ⟨x, y, rest, rfl, hlen, h0, hpol, hvalid⟩
    exact ⟨hlen, h0, hpol, (hck hlen).1 hvalid⟩

/-- Settles O33, by whether the byte that carries the polarity has arrived. -/
theorem framePendingConjuncts : Obligations.FramePendingConjuncts := by
  intro s v b
  refine ⟨framePending s.cfg v b, exec_framePending v b s, ?_⟩
  rw [framePending_iff, polarityOk_iff]
  match b with
  | [] => simp
  | [x] => simp [byteAt]
  | x :: y :: ys => simp [byteAt, and_assoc]

/-- Settles O34: a match needs 16 bytes, and a frame is classified only where FRAME_MATCH holds. -/
theorem shortBuffersAreNoFrame : Obligations.ShortBuffersAreNoFrame := by
  intro s v b V hlen
  have hno : ¬ frameMatch s.cfg v b = true := fun h => absurd (frameMatch_length h) (by omega)
  refine ⟨?_, fun h => hno (classify_frame h).2⟩
  rw [exec_frameMatch, Bool.eq_false_of_not_eq_true hno]
  rfl

/-- Settles O35: neither literal opens the other, the polarity bit parts the frames, and the first byte
parts the two kinds of message. -/
theorem matchesAreExclusive : Obligations.MatchesAreExclusive := by
  intro c b
  refine ⟨fun v w => hsMatch_unique, fun v w => frameMatch_unique, fun v w h => not_frameMatch_of_hsMatch h.1 h.2,
    fun v w h => ?_, classify_congr fun v => by simp [or_comm]⟩
  simp only [← Bool.not_eq_true]
  obtain h | h := h
  · exact ⟨not_hsPending_of_hsMatch h, not_framePending_of_hsMatch h⟩
  · exact ⟨not_hsPending_of_frameMatch h, not_framePending_of_frameMatch h⟩

/-- Settles O36, by the three equivalences of CLASSIFY. -/
theorem classifyFollowsPredicates : Obligations.ClassifyFollowsPredicates := by
  intro s b sel hb
  refine ⟨_, exec_classify hb _ s, fun v => ?_, fun v => ?_, ?_⟩
  · rw [classify_handshake_iff, mem_candidates]
  · rw [classify_frame_iff, mem_candidates]
  · simp only [classify_pending_iff, mem_candidates]

/-- Settles O37: RESYNC is the scan of the sequence after its first byte. -/
theorem resyncFindsFirstUsableOffset : Obligations.ResyncFindsFirstUsableOffset := by
  intro s b V hb hV
  refine ⟨_, exec_resync hb hV, resync_pos hb, ?_⟩
  cases b with
  | nil => exact absurd rfl hb
  | cons x xs =>
    obtain ⟨d, hle, hscan, hbelow, hat⟩ := resyncScan_spec s.cfg V xs 1
    have hk : resync s.cfg (x :: xs) V = d + 1 := hscan.trans (Nat.add_comm 1 d)
    rw [hk]
    refine ⟨by simpa using hle, fun j hj hjd => ?_, by simpa using hat⟩
    obtain ⟨j, rfl⟩ := Nat.exists_eq_add_of_le' hj
    exact hbelow j (by omega)

/-- Settles O38: the flipped bit breaks the checksum (O30), and no single flip makes the start byte open a literal. -/
theorem frameRoundTripUnderOneVariant : Obligations.FrameRoundTripUnderOneVariant := by
  intro c v f i k hlen hf hi hk
  refine ⟨classify_frame_iff.2 ⟨by simp, hf⟩, classify_noMatch_of_length (by simpa using hlen) ?_ ?_⟩
  · exact byteAt_zero_flipBit_ne (byteAt_zero_of_frameMatch hf) (List.ne_nil_of_length_pos (by omega)) hk i
  · simpa using not_frameMatch_flipBit hlen hf hi hk

end Sys2Proof.Machine
end

section
/-! The statement about the Variant Registry (42_variant_registry.md). -/

namespace Sys2Proof.Machine

open Sys2Proof

/-- What SELECT does to the registers (R176): one field is written, which keeps what it held unless it held nothing. -/
theorem select_eq (v : Variant) (L : Link) :
    select v L = { L with sel := if L.sel = .none then .some v else L.sel } := by
  unfold select
  split <;> rfl

/-- SELECT writes the registers of its link alone. -/
theorem exec_select {s : State} {l : Nat} {L : Link} (v : Variant) (h : s.link? l = .some L) :
    exec (.select l v) s = .next (s.setLink l (select v L)) :=
  onRegs_eq (fun _ _ => select v) h

/-- Settles O39: SELECT writes back `select v L`, whose one changed field `select_eq` gives. -/
theorem selectIsSticky : Obligations.SelectIsSticky := by
  intro s l L v h
  rw [exec_select v h, select_eq]

end Sys2Proof.Machine
end

section
/-! SUPPORT. The Connection State Machine (43_connection_fsm.md): its instructions as operations on a link's registers,
its actions as the registers they leave, and each rule where its condition holds and where it fails. -/

namespace Sys2Proof.Machine

open Sys2Proof

/-! ## The state after an operation on one link -/

theorem State.commit_start {s : State} {l : Nat} {L : Link} (h : s.link? l = .some L) :
    s.commit l (Work.start L) = s :=
  (State.commit_regs s l L false).trans (State.setLink_self h)

theorem State.commit_start_upd (s : State) (l : Nat) (L : Link) (f : Link → Link) :
    s.commit l ((Work.start L).upd f) = s.setLink l (f L) :=
  State.commit_regs s l (f L) false

/-! ## The instructions -/

section
variable {s : State} {l : Nat} {L : Link} (h : s.link? l = .some L)
include h

theorem exec_enter (S : ConnState) : exec (.enter l S) s = .next (s.setLink l (enter s.cfg s.now S L)) :=
  onRegs_eq (fun c now => enter c now S) h

theorem exec_demote : exec (.demote l) s = .next (s.setLink l (demote s.cfg s.now L)) := onRegs_eq demote h

theorem exec_t1 : exec (.t1ErrorToDisconnected l) s = .next (s.setLink l (ruleT1 s.cfg s.now L)) :=
  onRegs_eq ruleT1 h

theorem exec_t2 : exec (.t2PeriodicToParse l) s = .next (s.setLink l (ruleT2 s.cfg s.now L)) := onRegs_eq ruleT2 h

theorem exec_t3 : exec (.t3DisconnectedToError l) s = .next (s.commit l (ruleT3 s.cfg s.now (Work.start L))) :=
  onLink_eq ruleT3 h

theorem exec_t4 : exec (.t4DisconnectedFrame l) s = .next (s.commit l (ruleT4 s.cfg s.now (Work.start L))) :=
  onLink_eq ruleT4 h

theorem exec_t5 : exec (.t5DisconnectedHandshake l) s = .next (s.setLink l (ruleT5 s.cfg s.now L)) :=
  onRegs_eq ruleT5 h

theorem exec_t6 : exec (.t6DisconnectedResync l) s = .next (s.commit l (ruleT6 s.cfg (Work.start L))) :=
  onLink_eq (fun c _ => ruleT6 c) h

theorem exec_t7 : exec (.t7PairingFrame l) s = .next (s.commit l (ruleT7 s.cfg s.now (Work.start L))) :=
  onLink_eq ruleT7 h

theorem exec_t8 : exec (.t8PairingNomatch l) s = .next (s.setLink l (ruleT8 s.cfg s.now L)) := onRegs_eq ruleT8 h

theorem exec_t9 : exec (.t9PairingTimeout l) s = .next (s.setLink l (ruleT9 s.cfg s.now L)) := onRegs_eq ruleT9 h

theorem exec_t10 : exec (.t10LinkLost l) s = .next (s.commit l (ruleT10 s.cfg s.now (Work.start L))) :=
  onLink_eq ruleT10 h

theorem exec_t11 : exec (.t11StreamTime l) s = .next (s.setLink l (ruleT11 s.cfg s.now L)) := onRegs_eq ruleT11 h

theorem exec_t12 : exec (.t12StreamingDemote l) s = .next (s.setLink l (ruleT12 s.cfg s.now L)) :=
  onRegs_eq ruleT12 h

theorem exec_t13 : exec (.t13StreamCount l) s = .next (s.setLink l (t13 s.cfg s.now L)) := onRegs_eq t13 h

theorem exec_pairingHsRepeat : exec (.pairingHsRepeat l) s = .next (s.setLink l (ruleRepeat s.cfg L)) :=
  onRegs_eq (fun c _ => ruleRepeat c) h

theorem exec_frameAccept : exec (.frameAccept l) s = .next (s.commit l (ruleAccept s.cfg s.now (Work.start L))) :=
  onLink_eq ruleAccept h

theorem exec_pendingStop : exec (.pendingStop l) s = .next s := by
  have hstop : exec (.pendingStop l) s = .next (s.setLink l L) := onRegs_eq (fun _ _ L => L) h
  rw [hstop, State.setLink_self h]

theorem exec_processLink : exec (.processLink l) s = .next (s.commit l (processLink s.cfg s.now (Work.start L))) :=
  onLink_eq processLink h

end

/-! ## The actions -/

theorem satInc_eq_satInc8 (x : BitVec 8) : satInc x = satInc8 x := by
  have hmax : BitVec.allOnes 8 = 255 := rfl
  simp only [satInc, satInc8, hmax]
  split_ifs with hx
  · exact hx
  · rfl

theorem satInc_eq_satInc16 (x : Word16) : satInc x = satInc16 x := by
  have hmax : BitVec.allOnes 16 = 65535 := rfl
  simp only [satInc, satInc16, hmax]
  split_ifs with hx
  · exact hx
  · rfl

/-- `demote()` leaves the registers R188 gives. -/
theorem demote_eq_demoted (c : Config) (now : Nat) (L : Link) : demote c now L = L.demoted now := by
  simp only [demote, enter, entryAction, Link.demoted, satInc_eq_satInc8]

/-- The literal a selected variant's `enter(Pairing)` queues (R102, R104). -/
theorem responseOf_some (c : Config) (v : Variant) : responseOf c (.some v) = match v with
    | .legacy => legacyHsRspBytes
    | .modern => modernHsRspBytes := by cases v <;> rfl

/-- The literal a selected variant's `enter(StreamingPeriodic)` queues (R103, R105). -/
theorem periodicOf_some (c : Config) (v : Variant) : periodicOf c (.some v) = match v with
    | .legacy => legacyPeriodicReqBytes
    | .modern => modernPeriodicReqBytes := by cases v <;> rfl

theorem pktThresh_some (c : Config) (v : Variant) : pktThresh c (.some v) = match v with
    | .legacy => c.pktThreshLegacy
    | .modern => c.pktThreshModern := by cases v <;> rfl

theorem hsreq_length (v : Variant) : (hsreq v).length = match v with
    | .legacy => 16
    | .modern => 10 := by cases v <;> rfl

/-- A message found on a link is the selected variant's, or any variant's while none is selected (R175). -/
theorem sel_of_classOf {c : Config} {L : Link} {v : Variant}
    (h : classOf c L = .frame v ∨ classOf c L = .handshake v) : L.sel = .none ∨ L.sel = .some v :=
  mem_candidates.1 (h.elim (fun hk => (classify_frame hk).1) fun hk => (classify_handshake hk).1)

/-- A request is found in a non-empty buffer only. -/
theorem buf_ne_nil_of_handshake {c : Config} {L : Link} {v : Variant} (h : classOf c L = .handshake v) : L.buf ≠ [] :=
  List.ne_nil_of_length_pos ((hsreq_length_pos v).trans (hsMatch_length (classify_handshake h).2))

/-- SELECT of the variant of a message found on the link leaves that variant selected. -/
theorem select_of_classOf {c : Config} {L : Link} {v : Variant}
    (h : classOf c L = .frame v ∨ classOf c L = .handshake v) : select v L = { L with sel := .some v } := by
  obtain hsel | hsel := sel_of_classOf h <;> simp [select_eq, hsel]

/-- T13 with `v` selected counts as R204 says; outside StreamingParse the selection does not matter. -/
theorem t13_eq_counted {c : Config} {L : Link} {v : Variant} (now : Nat)
    (h : L.cs = .streamingParse → L.sel = .some v) : t13 c now L = L.counted c now v := by
  by_cases hcs : L.cs = .streamingParse
  · simp only [t13, Link.counted, h hcs, pktThresh]
    split_ifs
    · simp only [enter, entryAction, tx, h hcs, periodicOf]
    · rfl
  · rw [t13, if_neg (fun hfire => hcs hfire.1), Link.counted, if_neg (fun hfire => hcs hfire.1)]

theorem accept_start_eq {c : Config} {L : Link} {v : Variant} (now : Nat)
    (h : L.cs = .streamingParse → L.sel = .some v) : accept c now v (Work.start L) =
      { link := L.accepted.counted c now v, frames := [(v, L.buf.take 16)], errs := [], discarded := false } := by
  rw [← t13_eq_counted (L := L.accepted) now h, Link.accepted, ← satInc_eq_satInc16]
  rfl

/-- The frame-accept action delivers the frame at the front and counts it (R203, R204). -/
theorem State.commit_accept {s : State} {L : Link} {v : Variant} (l : Nat)
    (h : L.cs = .streamingParse → L.sel = .some v) :
    s.commit l (accept s.cfg s.now v (Work.start L)) = s.delivered l v L (L.accepted.counted s.cfg s.now v) := by
  rw [accept_start_eq s.now h, State.commit, State.addErrs_nil, State.addFrames, State.setLink_frameOut]
  rfl

/-- Writing the registers and raising one kind, in either order, appends that kind's event. -/
theorem State.commit_start_raise (s : State) (l : Nat) (L L' : Link) (k : ErrKind) :
    s.commit l (((Work.start L).upd fun _ => L').raise k) =
      { s.setLink l L' with errOut := s.errOut ++ [{ link := l, kind := k, raw := 0 }] } := by
  have hraise := State.commit_raise s l L' false k
  rwa [State.setLink_errOut] at hraise

/-! ## Rules of Phase A where the condition holds -/

section
variable {c : Config} {now : Nat} {L : Link} {w : Work} {v : Variant}

theorem ruleT1_of_error (h : L.cs = .error) : ruleT1 c now L = leaveError c now L := if_pos h

theorem ruleT2_of_periodic (h : L.cs = .streamingPeriodic) : ruleT2 c now L = enter c now .streamingParse L := if_pos h

theorem overLimit_iff : overLimit c L = true ↔ c.disconnectLimit < L.dcc.toNat := decide_eq_true_iff

theorem ruleT3_of_disconnected (h : w.link.cs = .disconnected) :
    ruleT3 c now w = if overLimit c w.link then takeMismatch c now w else w := by
  simp [ruleT3, h]

theorem ruleT9_of_timeout (hcs : L.cs = .pairing) (ht : c.tPair < elapsed c now L.tEntry) :
    ruleT9 c now L = demote c now L := if_pos ⟨hcs, ht⟩

theorem ruleT10_of_lost (hcs : w.link.cs = .streamingParse) (ht : c.tUnactive < elapsed c now w.link.tLast) :
    ruleT10 c now w = takeLinkLost c now w := if_pos ⟨hcs, ht⟩

theorem ruleT11_of_not_lost (hcs : L.cs = .streamingParse) (hlost : ¬ c.tUnactive < elapsed c now L.tLast) :
    ruleT11 c now L = if c.tStream ≤ elapsed c now L.tEntry then enter c now .streamingPeriodic L else L := by
  simp [ruleT11, hcs, hlost]

/-! ## Rules of Phase B where the condition holds -/

theorem ruleT4_of_frame (hcs : w.link.cs = .disconnected) (hk : classOf c w.link = .frame v) :
    ruleT4 c now w = actT4 c now v w := by
  simp [ruleT4, hcs, hk]

theorem ruleT5_of_handshake (hcs : L.cs = .disconnected) (hk : classOf c L = .handshake v) :
    ruleT5 c now L = actT5 c now v L := by
  simp [ruleT5, hcs, hk]

theorem ruleT6_of_noMatch (hcs : w.link.cs = .disconnected) (hb : w.link.buf ≠ [])
    (hk : classOf c w.link = .noMatch) : ruleT6 c w = actT6 c w :=
  if_pos ⟨hcs, List.length_pos_iff.2 hb, hk⟩

theorem ruleT7_of_frame (hcs : w.link.cs = .pairing) (hk : classOf c w.link = .frame v) :
    ruleT7 c now w = actT7 c now v w := by
  simp [ruleT7, hcs, hk]

theorem ruleT8_of_noMatch (hcs : L.cs = .pairing) (hb : L.buf ≠ []) (hk : classOf c L = .noMatch) :
    ruleT8 c now L = demote c now L :=
  if_pos ⟨hcs, List.length_pos_iff.2 hb, hk⟩

theorem ruleT12_of_streaming (hcs : L.cs = .streamingParse ∨ L.cs = .streamingPeriodic) (hb : L.buf ≠ [])
    (hk : classOf c L = .noMatch ∨ ∃ v, classOf c L = .handshake v) : ruleT12 c now L = demote c now L := by
  have hpos := List.length_pos_iff.2 hb
  obtain hk | ⟨v, hk⟩ := hk <;> obtain hcs | hcs := hcs <;> simp [ruleT12, hcs, hk, hpos]

theorem ruleRepeat_of_handshake (hcs : L.cs = .pairing) (hk : classOf c L = .handshake v) :
    ruleRepeat c L = actRepeat v L := by
  simp [ruleRepeat, hcs, hk]

theorem ruleAccept_of_frame (hk : classOf c w.link = .frame v) : ruleAccept c now w = accept c now v w := by
  simp [ruleAccept, hk]

theorem t13_of_reached (hcs : L.cs = .streamingParse) (hne : pktThresh c L.sel ≠ 0)
    (hle : pktThresh c L.sel ≤ L.pkt.toNat) : t13 c now L = enter c now .streamingPeriodic L :=
  if_pos ⟨hcs, hne, hle⟩

/-! ## Rules where the condition fails (log 12) -/

theorem ruleT3_of_not (h : w.link.cs ≠ .disconnected ∨ w.link.dcc.toNat ≤ c.disconnectLimit) :
    ruleT3 c now w = w := by
  refine if_neg fun ⟨hcs, hover⟩ => ?_
  have := overLimit_iff.1 hover
  obtain h | h := h
  · exact h hcs
  · omega

theorem ruleT4_of_not (h : w.link.cs ≠ .disconnected ∨ ∀ v, classOf c w.link ≠ .frame v) : ruleT4 c now w = w := by
  unfold ruleT4
  split
  next v hcs hk => exact absurd h (not_or.2 ⟨not_not.2 hcs, fun hno => hno v hk⟩)
  next => rfl

theorem ruleT5_of_not (h : L.cs ≠ .disconnected ∨ ∀ v, classOf c L ≠ .handshake v) : ruleT5 c now L = L := by
  unfold ruleT5
  split
  next v hcs hk => exact absurd h (not_or.2 ⟨not_not.2 hcs, fun hno => hno v hk⟩)
  next => rfl

theorem ruleT6_of_not (h : w.link.cs ≠ .disconnected ∨ w.link.buf = [] ∨ classOf c w.link ≠ .noMatch) :
    ruleT6 c w = w := by
  refine if_neg fun ⟨hcs, hpos, hk⟩ => ?_
  obtain h | h | h := h
  · exact h hcs
  · exact List.length_pos_iff.1 hpos h
  · exact h hk

theorem ruleT7_of_not (h : w.link.cs ≠ .pairing ∨ ∀ v, classOf c w.link ≠ .frame v) : ruleT7 c now w = w := by
  unfold ruleT7
  split
  next v hcs hk => exact absurd h (not_or.2 ⟨not_not.2 hcs, fun hno => hno v hk⟩)
  next => rfl

theorem ruleT8_of_not (h : L.cs ≠ .pairing ∨ L.buf = [] ∨ classOf c L ≠ .noMatch) : ruleT8 c now L = L := by
  refine if_neg fun ⟨hcs, hpos, hk⟩ => ?_
  obtain h | h | h := h
  · exact h hcs
  · exact List.length_pos_iff.1 hpos h
  · exact h hk

theorem ruleT9_of_not (h : L.cs ≠ .pairing ∨ elapsed c now L.tEntry ≤ c.tPair) : ruleT9 c now L = L :=
  if_neg fun ⟨hcs, ht⟩ => h.elim (fun hne => hne hcs) fun hle => absurd ht (Nat.not_lt.2 hle)

theorem ruleT10_of_not (h : w.link.cs ≠ .streamingParse ∨ elapsed c now w.link.tLast ≤ c.tUnactive) :
    ruleT10 c now w = w :=
  if_neg fun ⟨hcs, ht⟩ => h.elim (fun hne => hne hcs) fun hle => absurd ht (Nat.not_lt.2 hle)

theorem ruleT11_of_not (h : L.cs ≠ .streamingParse ∨ c.tUnactive < elapsed c now L.tLast ∨
    elapsed c now L.tEntry < c.tStream) : ruleT11 c now L = L := by
  refine if_neg fun ⟨hcs, hlost, ht⟩ => ?_
  obtain h | h | h := h
  · exact h hcs
  · exact hlost h
  · omega

theorem ruleT12_of_not (h : (L.cs ≠ .streamingParse ∧ L.cs ≠ .streamingPeriodic) ∨ L.buf = [] ∨
    (classOf c L ≠ .noMatch ∧ ∀ v, classOf c L ≠ .handshake v)) : ruleT12 c now L = L := by
  have hno (hcs : L.cs = .streamingParse ∨ L.cs = .streamingPeriodic) (hb : L.buf ≠ [])
      (hk : classOf c L = .noMatch ∨ ∃ v, classOf c L = .handshake v) : False := by
    obtain ⟨hparse, hperiodic⟩ | hnil | ⟨hnm, hhs⟩ := h
    · exact hcs.elim hparse hperiodic
    · exact hb hnil
    · exact hk.elim hnm fun ⟨v, hv⟩ => hhs v hv
  unfold ruleT12
  split
  next v hcs hk => exact (hno (.inl hcs) (buf_ne_nil_of_handshake hk) (.inr ⟨v, hk⟩)).elim
  next v hcs hk => exact (hno (.inr hcs) (buf_ne_nil_of_handshake hk) (.inr ⟨v, hk⟩)).elim
  next hcs hk => exact if_neg fun hpos => hno (.inl hcs) (List.length_pos_iff.1 hpos) (.inl hk)
  next hcs hk => exact if_neg fun hpos => hno (.inr hcs) (List.length_pos_iff.1 hpos) (.inl hk)
  next => rfl

theorem t13_of_not (h : L.cs ≠ .streamingParse ∨ ∃ v, L.sel = .some v ∧
    ((descriptor c v).pktThresh = 0 ∨ L.pkt.toNat < (descriptor c v).pktThresh)) : t13 c now L = L := by
  refine if_neg fun ⟨hcs, hne, hle⟩ => ?_
  obtain h | ⟨v, hsel, hthresh⟩ := h
  · exact h hcs
  · rw [hsel] at hne hle
    exact hthresh.elim hne (Nat.not_lt.2 hle)

theorem ruleRepeat_of_not (h : L.cs ≠ .pairing ∨ ∀ v, classOf c L ≠ .handshake v) : ruleRepeat c L = L := by
  unfold ruleRepeat
  split
  next v hcs hk => exact absurd h (not_or.2 ⟨not_not.2 hcs, fun hno => hno v hk⟩)
  next => rfl

theorem ruleAccept_of_not (h : ∀ v, classOf c w.link ≠ .frame v) : ruleAccept c now w = w := by
  unfold ruleAccept
  split
  next v hk => exact absurd hk (h v)
  next => rfl

end

end Sys2Proof.Machine
end

section
/-! SUPPORT. A tick of one link as a run of the opcode table's rules (R189, R213, R255): what an operation adds to the
work before it, Phase A and one iteration of Phase B as instructions, and the loop by what ends it and what goes on. -/

namespace Sys2Proof.Machine

open Sys2Proof

/-! ## One work after another -/

/-- The work `w` with what the operation `w'` on the same link did after it. -/
def Work.followedBy (w w' : Work) : Work where
  link := w'.link
  frames := w.frames ++ w'.frames
  errs := w.errs ++ w'.errs
  discarded := w.discarded || w'.discarded

/-- Two operations committed one after the other leave what their joint work leaves. -/
theorem State.commit_commit (s : State) (l : Nat) (w w' : Work) :
    (s.commit l w).commit l w' = s.commit l (w.followedBy w') := by
  cases l <;> simp [State.commit, State.setLink, State.addFrames, State.addErrs, Work.followedBy]

theorem State.commit_congr (s : State) (l : Nat) {w w' : Work} (hf : w'.frames = w.frames) (he : w'.errs = w.errs) :
    s.commit l w' = (s.commit l w).setLink l w'.link := by
  cases l <;> simp [State.commit, State.setLink, State.addFrames, State.addErrs, hf, he]

section
variable {c : Config} {now : Nat}

theorem upd_followedBy (w : Work) (f : Link → Link) : w.upd f = w.followedBy ((Work.start w.link).upd f) := by
  simp [Work.followedBy, Work.upd]

theorem accept_followedBy (v : Variant) (w : Work) :
    accept c now v w = w.followedBy (accept c now v (Work.start w.link)) := by
  simp [accept, Work.followedBy, Work.upd, Work.deliver]

/-- What an iteration of Phase B does depends on the link's registers alone. -/
theorem phaseBStep_followedBy (w : Work) (k : Class) :
    (phaseBStep c now w k).1 = w.followedBy (phaseBStep c now (Work.start w.link) k).1 := by
  have hsame : w = w.followedBy (Work.start w.link) := by simp [Work.followedBy]
  cases k with
  | pending => exact hsame
  | handshake v =>
    cases hcs : w.link.cs <;> simp only [phaseBStep, Work.start_link, hcs]
    case error => exact hsame
    all_goals exact upd_followedBy w _
  | frame v =>
    cases hcs : w.link.cs <;> simp only [phaseBStep, Work.start_link, hcs]
    case disconnected => exact accept_followedBy v (w.upd _)
    case pairing => exact accept_followedBy v (w.upd _)
    all_goals exact accept_followedBy v w
  | noMatch =>
    cases hcs : w.link.cs <;> simp only [phaseBStep, Work.start_link, hcs]
    case disconnected => simp [actT6, Work.followedBy]
    all_goals exact upd_followedBy w _

end

/-! ## Phase A -/

section
variable {c : Config} {now : Nat} {w : Work}

theorem phaseA_of_error (hcs : w.link.cs = .error) : phaseA c now w = (w.upd (ruleT1 c now), false) := by
  simp [phaseA, Work.upd, hcs, ruleT1_of_error]

theorem phaseA_of_periodic (hcs : w.link.cs = .streamingPeriodic) :
    phaseA c now w = (w.upd (ruleT2 c now), false) := by
  simp [phaseA, Work.upd, hcs, ruleT2_of_periodic]

theorem phaseA_of_disconnected (hcs : w.link.cs = .disconnected) :
    phaseA c now w = (ruleT3 c now w, overLimit c w.link) := by
  simp only [phaseA, hcs, ruleT3_of_disconnected hcs]
  split
  next hover => rw [hover]
  next hover => rw [Bool.eq_false_of_not_eq_true hover]

theorem phaseA_of_pairing (hcs : w.link.cs = .pairing) : phaseA c now w = (w.upd (ruleT9 c now), false) := by
  simp only [phaseA, hcs]

theorem phaseA_of_lost (hcs : w.link.cs = .streamingParse) (hlost : c.tUnactive < elapsed c now w.link.tLast) :
    phaseA c now w = (ruleT10 c now w, false) := by
  simp only [phaseA, hcs, if_pos hlost, ruleT10_of_lost hcs hlost]

theorem phaseA_of_not_lost (hcs : w.link.cs = .streamingParse)
    (hlost : ¬ c.tUnactive < elapsed c now w.link.tLast) : phaseA c now w = (w.upd (ruleT11 c now), false) := by
  simp only [phaseA, hcs, if_neg hlost, Work.upd, ruleT11_of_not_lost hcs hlost]
  split <;> rfl

/-- The tick ends after Phase A exactly where that entered Error (R192). -/
theorem phaseA_stops_iff : (phaseA c now w).2 = true ↔ (phaseA c now w).1.link.cs = .error := by
  refine ⟨fun hstop => ?_, fun herr => ?_⟩
  · cases hcs : w.link.cs with
    | disconnected =>
      rw [phaseA_of_disconnected hcs] at hstop ⊢
      dsimp only at hstop ⊢
      rw [ruleT3_of_disconnected hcs, if_pos hstop]
      exact enter_cs _ _ _ _
    | error => rw [phaseA_of_error hcs] at hstop; cases hstop
    | pairing => rw [phaseA_of_pairing hcs] at hstop; cases hstop
    | streamingPeriodic => rw [phaseA_of_periodic hcs] at hstop; cases hstop
    | streamingParse =>
      by_cases hlost : c.tUnactive < elapsed c now w.link.tLast
      · rw [phaseA_of_lost hcs hlost] at hstop; cases hstop
      · rw [phaseA_of_not_lost hcs hlost] at hstop; cases hstop
  · by_contra hgo
    exact phaseA_cs (Prod.ext rfl (Bool.eq_false_of_not_eq_true hgo)) herr

theorem phaseA_discarded : (phaseA c now w).1.discarded = w.discarded := by
  cases hcs : w.link.cs with
  | disconnected => rw [phaseA_of_disconnected hcs, ruleT3]; split <;> rfl
  | error => rw [phaseA_of_error hcs, Work.upd_discarded]
  | pairing => rw [phaseA_of_pairing hcs, Work.upd_discarded]
  | streamingPeriodic => rw [phaseA_of_periodic hcs, Work.upd_discarded]
  | streamingParse =>
    by_cases hlost : c.tUnactive < elapsed c now w.link.tLast
    · rw [phaseA_of_lost hcs hlost, ruleT10_of_lost hcs hlost]; rfl
    · rw [phaseA_of_not_lost hcs hlost, Work.upd_discarded]

end

/-- Phase A is the one rule of the table for the state held (R212). -/
theorem exec_phaseARule {s : State} {l : Nat} {L : Link} (h : s.link? l = .some L) :
    exec (phaseARule s.cfg s.now l L) s = .next (s.commit l (phaseA s.cfg s.now (Work.start L)).1) := by
  have hstart : (Work.start L).link = L := rfl
  cases hcs : L.cs <;> simp only [phaseARule, hcs]
  case error => rw [phaseA_of_error (hstart ▸ hcs), State.commit_start_upd, exec_t1 h]
  case streamingPeriodic => rw [phaseA_of_periodic (hstart ▸ hcs), State.commit_start_upd, exec_t2 h]
  case disconnected => rw [phaseA_of_disconnected (hstart ▸ hcs), exec_t3 h]
  case pairing => rw [phaseA_of_pairing (hstart ▸ hcs), State.commit_start_upd, exec_t9 h]
  case streamingParse =>
    split
    next hlost => rw [phaseA_of_lost (hstart ▸ hcs) (hstart ▸ hlost), exec_t10 h]
    next hlost => rw [phaseA_of_not_lost (hstart ▸ hcs) (hstart ▸ hlost), State.commit_start_upd, exec_t11 h]

section
variable {c : Config} {now : Nat}

theorem processLink_of_error {w : Work} (h : (phaseA c now w).1.link.cs = .error) :
    processLink c now w = (phaseA c now w).1 := by
  have hstop := phaseA_stops_iff.2 h
  unfold processLink
  split
  next hA => rw [hA]
  next hA => rw [hA] at hstop; cases hstop

theorem processLink_of_not_error {w : Work} (h : (phaseA c now w).1.link.cs ≠ .error) (hd : w.discarded = false) :
    processLink c now w = phaseC c now ((phaseA c now w).1.link.cs = .disconnected)
      (phaseB c now (phaseBBound (phaseA c now w).1.link) (phaseA c now w).1) := by
  have hgo := mt phaseA_stops_iff.1 h
  have hdisc : (phaseA c now w).1.discarded = false := phaseA_discarded.trans hd
  unfold processLink
  split
  next hA => rw [hA] at hgo; exact absurd rfl hgo
  next hA =>
    rw [hA] at hdisc
    simp only [hA, ← hdisc]

/-! ## The loop of Phase B -/

theorem phaseB_of_stop {w : Work} (h : w.link.buf = [] ∨ classOf c w.link = .pending) (fuel : Nat) :
    phaseB c now fuel w = w := by
  cases fuel with
  | zero => rfl
  | succ fuel =>
    unfold phaseB
    split
    next => rfl
    next hb => rw [h.resolve_left hb]; rfl

/-- Outside Error an iteration goes on unless the buffer is Pending. -/
theorem phaseBStep_goes_on {w : Work} (hp : classOf c w.link ≠ .pending) (hc : w.link.cs ≠ .error) :
    phaseBStep c now w (classOf c w.link) = ((phaseBStep c now w (classOf c w.link)).1, true) := by
  refine Prod.ext rfl ?_
  by_contra hstop
  exact hp (phaseBStep_stops (Prod.ext rfl (Bool.eq_false_of_not_eq_true hstop)) hc).2

theorem phaseB_of_goes_on {w : Work} (hb : w.link.buf ≠ []) (hp : classOf c w.link ≠ .pending)
    (hc : w.link.cs ≠ .error) (fuel : Nat) :
    phaseB c now (fuel + 1) w = phaseB c now fuel (phaseBStep c now w (classOf c w.link)).1 := by
  rw [phaseB, if_neg hb, phaseBStep_goes_on hp hc]

theorem phaseBMeasure_le (w : Work) : phaseBMeasure w ≤ 2 * w.link.buf.length + 1 := by
  unfold phaseBMeasure; split <;> omega

/-- Any two bounds that cover the measure give the same run of Phase B (R214). -/
theorem phaseB_eq_of_measure_le (n : Nat) : ∀ (m : Nat) (w : Work), w.link.cs ≠ .error →
    phaseBMeasure w ≤ n → phaseBMeasure w ≤ m → phaseB c now n w = phaseB c now m w := by
  induction n with
  | zero =>
    intro m w _ hn _
    have hb : w.link.buf = [] := List.length_eq_zero_iff.1 (by unfold phaseBMeasure at hn; omega)
    rw [phaseB_of_stop (.inl hb), phaseB_of_stop (.inl hb)]
  | succ n ih =>
    intro m w hc hn hm
    by_cases hstop : w.link.buf = [] ∨ classOf c w.link = .pending
    · rw [phaseB_of_stop hstop, phaseB_of_stop hstop]
    · obtain ⟨hb, hp⟩ := not_or.1 hstop
      obtain ⟨hless, hc'⟩ := phaseBStep_continues (phaseBStep_goes_on (now := now) hp hc) hb hc
      obtain ⟨m, rfl⟩ := Nat.exists_eq_add_of_le' (show 1 ≤ m by omega)
      rw [phaseB_of_goes_on hb hp hc, phaseB_of_goes_on hb hp hc]
      exact ih m _ hc' (by omega) (by omega)

/-- T6 is the one rule that sets the transient flag (R207). -/
theorem phaseBStep_discarded (w : Work) (k : Class) : (phaseBStep c now w k).1.discarded =
    (w.discarded || (decide (w.link.cs = .disconnected) && decide (k = .noMatch))) := by
  cases k with
  | pending => simp [phaseBStep]
  | handshake v => cases hcs : w.link.cs <;> simp [phaseBStep, hcs]
  | frame v => cases hcs : w.link.cs <;> simp [phaseBStep, hcs, actT4, actT7]
  | noMatch => cases hcs : w.link.cs <;> simp [phaseBStep, hcs, actT6]

end

/-! ## Phase B as instructions -/

section
variable {s : State} {l : Nat} {L : Link}

/-- An iteration of Phase B is the rule of the table for its pair of state and class (R213). -/
theorem exec_phaseBRule (h : s.link? l = .some L) (hb : L.buf ≠ []) (hc : L.cs ≠ .error) :
    exec (phaseBRule l L.cs (classOf s.cfg L)) s =
      .next (s.commit l (phaseBStep s.cfg s.now (Work.start L) (classOf s.cfg L)).1) := by
  have hstart : (Work.start L).link = L := rfl
  cases hk : classOf s.cfg L with
  | pending => exact (exec_pendingStop h).trans (congrArg _ (State.commit_start h).symm)
  | handshake v =>
    cases hcs : L.cs <;> simp only [phaseBRule, phaseBStep, hstart, hcs, State.commit_start_upd]
    case disconnected => rw [exec_t5 h, ruleT5_of_handshake hcs hk]
    case pairing => rw [exec_pairingHsRepeat h, ruleRepeat_of_handshake hcs hk]
    case streamingParse => rw [exec_t12 h, ruleT12_of_streaming (.inl hcs) hb (.inr ⟨v, hk⟩)]
    case streamingPeriodic => rw [exec_t12 h, ruleT12_of_streaming (.inr hcs) hb (.inr ⟨v, hk⟩)]
    case error => exact absurd hcs hc
  | frame v =>
    cases hcs : L.cs <;> simp only [phaseBRule, phaseBStep, hstart, hcs]
    case disconnected => rw [exec_t4 h, ruleT4_of_frame (hstart ▸ hcs) (hstart ▸ hk)]
    case pairing => rw [exec_t7 h, ruleT7_of_frame (hstart ▸ hcs) (hstart ▸ hk)]
    case error => exact absurd hcs hc
    all_goals rw [exec_frameAccept h, ruleAccept_of_frame (hstart ▸ hk)]
  | noMatch =>
    cases hcs : L.cs <;> simp only [phaseBRule, phaseBStep, hstart, hcs, State.commit_start_upd]
    case disconnected => rw [exec_t6 h, ruleT6_of_noMatch (hstart ▸ hcs) (hstart ▸ hb) (hstart ▸ hk)]
    case pairing => rw [exec_t8 h, ruleT8_of_noMatch hcs hb hk]
    case streamingParse => rw [exec_t12 h, ruleT12_of_streaming (.inl hcs) hb (.inl hk)]
    case streamingPeriodic => rw [exec_t12 h, ruleT12_of_streaming (.inr hcs) hb (.inl hk)]
    case error => exact absurd hcs hc

/-- From the state that committed the work so far, one iteration of Phase B is that rule. -/
theorem exec_phaseBRule_commit (h : s.link? l = .some L) {w : Work} (hb : w.link.buf ≠ []) (hc : w.link.cs ≠ .error) :
    exec (phaseBRule l w.link.cs (classOf s.cfg w.link)) (s.commit l w) =
      .next (s.commit l (phaseBStep s.cfg s.now w (classOf s.cfg w.link)).1) := by
  have hrule := exec_phaseBRule (State.link?_commit_same w h) hb hc
  rwa [State.commit_cfg, State.commit_now, State.commit_commit, ← phaseBStep_followedBy] at hrule

/-- With a bound that covers the measure, Phase B is a run of the table's rules to the loop's end. -/
theorem phaseBRun_phaseB (h : s.link? l = .some L) (fuel : Nat) : ∀ w : Work, w.link.cs ≠ .error →
    phaseBMeasure w ≤ fuel →
      PhaseBRun l (s.commit l w) w.discarded (s.commit l (phaseB s.cfg s.now fuel w))
        (phaseB s.cfg s.now fuel w).discarded := by
  induction fuel with
  | zero =>
    intro w _ hfuel
    have hb : w.link.buf = [] := List.length_eq_zero_iff.1 (by unfold phaseBMeasure at hfuel; omega)
    exact .stop (State.link?_commit_same w h) (.inl hb)
  | succ fuel ih =>
    intro w hc hfuel
    have hlink := State.link?_commit_same w h
    by_cases hstop : w.link.buf = [] ∨ classOf s.cfg w.link = .pending
    · rw [phaseB_of_stop hstop]
      exact .stop hlink (by rwa [State.commit_cfg])
    · obtain ⟨hb, hp⟩ := not_or.1 hstop
      obtain ⟨hless, hc'⟩ := phaseBStep_continues (phaseBStep_goes_on (now := s.now) hp hc) hb hc
      have hrun := ih _ hc' (by omega)
      rw [phaseBStep_discarded] at hrun
      rw [phaseB_of_goes_on hb hp hc]
      have hcfg := State.commit_cfg s l w
      exact .step hlink hb (by rwa [hcfg]) (by rw [hcfg]; exact exec_phaseBRule_commit h hb hc) (by rwa [hcfg])

end

/-! ## Phase C -/

section
variable {c : Config} {now : Nat}

theorem phaseC_errs (startedDisc : Bool) (w : Work) : (phaseC c now startedDisc w).errs = w.errs := by
  unfold phaseC; dsimp only; split <;> rfl

theorem idleReset_eq_ite (L : Link) :
    idleReset c now L = if L.buf ≠ [] ∧ c.tIdle < elapsed c now L.tLast then { L with buf := [] } else L := by
  simp only [idleReset, List.length_pos_iff]
  rfl

/-- Phase C leaves the registers R207 and R258 give. -/
theorem phaseC_link (L : Link) (w : Work) : (phaseC c now (L.cs = .disconnected) w).link =
    phaseCRegs c now L w.link w.discarded := by
  unfold phaseC phaseCRegs
  simp only [Work.upd_link, idleReset_eq_ite, apply_ite Work.link, decide_eq_true_eq, satInc_eq_satInc8]

end

end Sys2Proof.Machine
end

section
/-! The statements about the Connection State Machine (43_connection_fsm.md). -/

namespace Sys2Proof.Machine

open Sys2Proof

/-- Settles O12: Phase A is the rule of the state held, the bound of Phase B covers the measure, and Phase C writes
registers only. -/
theorem tickIsARunOfTableRules : Obligations.TickIsARunOfTableRules := by
  intro s l L h
  set w₁ := (phaseA s.cfg s.now (Work.start L)).1 with hw₁
  have hlink₁ := State.link?_commit_same w₁ h
  refine ⟨_, _, _, exec_processLink h, exec_phaseARule h, hlink₁, ?_⟩
  split
  next herr => rw [processLink_of_error herr]
  next hgo =>
    have hrun := phaseBRun_phaseB h (phaseBBound w₁.link) w₁ hgo (phaseBMeasure_le w₁)
    have hd : w₁.discarded = false := phaseA_discarded
    rw [hd] at hrun
    refine ⟨_, _, _, hrun, State.link?_commit_same _ h, ?_⟩
    rw [processLink_of_not_error hgo rfl, ← hw₁, ← phaseC_link]
    exact State.commit_congr s l (phaseC_frames _ _ _ _) (phaseC_errs _ _)

/-- Settles O14: the measure of R214 is at most `2 * len + 1`. -/
theorem phaseBBoundSuffices : Obligations.PhaseBBoundSuffices := by
  intro c now w n hc hn
  have hle := phaseBMeasure_le w
  exact phaseB_eq_of_measure_le _ _ w hc (hle.trans hn) hle

/-- Settles O48: T4 is the frame-accept action on the registers SELECT and `enter` leave. -/
theorem directFrameStartsStreaming : Obligations.DirectFrameStartsStreaming := by
  intro s l L v h hcs hk
  have hsel := select_of_classOf (.inl hk)
  rw [exec_t4 h, ruleT4_of_frame (w := Work.start L) hcs hk]
  refine congrArg _ ((State.commit_accept (L := enter s.cfg s.now .streamingParse (select v L)) l ?_).trans ?_)
  · rw [hsel]; exact fun _ => rfl
  · rw [hsel]; rfl

/-- Settles O49: T5 enters Pairing with the request's variant selected, whose response R187 names. -/
theorem handshakeIsAnswered : Obligations.HandshakeIsAnswered := by
  intro s l L v h hcs hk
  rw [exec_t5 h, ruleT5_of_handshake hcs hk, actT5, select_of_classOf (.inr hk), hsreq_length]
  simp only [enter, entryAction, consume, tx, responseOf_some]
  rfl

/-- Settles O50: RESYNC's answer for the same buffer is what T6 consumes. -/
theorem resyncDiscardsAndStays : Obligations.ResyncDiscardsAndStays := by
  intro s l L h hcs hb hk
  obtain ⟨k, hexec, hpos, hle, -⟩ := resyncFindsFirstUsableOffset s L.buf _ hb hk
  obtain rfl : resyncOf s.cfg L = k := by
    have hboth := (exec_resync (s := s) hb hk).symm.trans hexec
    simpa [State.answer, resyncOf] using hboth
  refine ⟨_, hpos, hle, hexec, ?_⟩
  rw [exec_t6 h, ruleT6_of_noMatch (w := Work.start L) hcs hb hk]
  exact congrArg _ (State.commit_regs s l _ true)

/-- Settles O51: T7 is the frame-accept action on the registers `enter` leaves. -/
theorem firstFrameEndsPairing : Obligations.FirstFrameEndsPairing := by
  intro s l L v h hcs hsel hk
  rw [exec_t7 h, ruleT7_of_frame (w := Work.start L) hcs hk]
  exact congrArg _ (State.commit_accept (L := enter s.cfg s.now .streamingParse L) l fun _ => hsel)

/-- Settles O55: in StreamingParse the invariant gives a selection, which is the frame's variant. -/
theorem frameIsAccepted : Obligations.FrameIsAccepted := by
  intro s l L v h hinv hk
  have hsel (hcs : L.cs = .streamingParse) : L.sel = .some v := by
    have hne := (Sound.of_linkInv hinv).sel_ne_none (by simp [hcs]) (by simp [hcs])
    exact (sel_of_classOf (.inl hk)).resolve_left hne
  rw [exec_frameAccept h, ruleAccept_of_frame (w := Work.start L) hk]
  exact congrArg _ (State.commit_accept l hsel)

/-- Settles O58: where its condition fails each rule is the identity, and writing back what a link holds changes
nothing. -/
theorem rulesNeedTheirConditions : Obligations.RulesNeedTheirConditions := by
  intro s l L h
  have hregs {i : Instr} {L' : Link} (hi : exec i s = .next (s.setLink l L')) (he : L' = L) : exec i s = .next s := by
    rw [hi, he, State.setLink_self h]
  have hwork {i : Instr} {w : Work} (hi : exec i s = .next (s.commit l w)) (he : w = Work.start L) :
      exec i s = .next s := by
    rw [hi, he, State.commit_start h]
  exact ⟨fun hc => hregs (exec_t1 h) (if_neg hc), fun hc => hregs (exec_t2 h) (if_neg hc),
    fun hc => hwork (exec_t3 h) (ruleT3_of_not hc), fun hc => hwork (exec_t4 h) (ruleT4_of_not hc),
    fun hc => hregs (exec_t5 h) (ruleT5_of_not hc), fun hc => hwork (exec_t6 h) (ruleT6_of_not hc),
    fun hc => hwork (exec_t7 h) (ruleT7_of_not hc), fun hc => hregs (exec_t8 h) (ruleT8_of_not hc),
    fun hc => hregs (exec_t9 h) (ruleT9_of_not hc), fun hc => hwork (exec_t10 h) (ruleT10_of_not hc),
    fun hc => hregs (exec_t11 h) (ruleT11_of_not hc), fun hc => hregs (exec_t12 h) (ruleT12_of_not hc),
    fun hc => hregs (exec_t13 h) (t13_of_not hc), fun hc => hregs (exec_pairingHsRepeat h) (ruleRepeat_of_not hc),
    fun hc => hwork (exec_frameAccept h) (ruleAccept_of_not hc)⟩

/-- Settles O40: ENTER writes the state and the time, then the entry action of R187, whose literal the selection
names. -/
theorem enterWritesEntryAction : Obligations.EnterWritesEntryAction := by
  intro s l L h
  refine ⟨exec_enter h _, exec_enter h _, exec_enter h _, fun hsel => ⟨?_, ?_⟩, fun hsel => ⟨?_, ?_⟩, fun _ =>
    ⟨responseOf s.cfg L.sel, periodicOf s.cfg L.sel, exec_enter h _, exec_enter h _⟩⟩
  all_goals rw [exec_enter h]; simp only [enter, entryAction, tx, hsel, responseOf_some, periodicOf_some]
  rw [modernPeriodicReqBytes, enqueue_nil]

/-- Settles O41, by the registers `demote()` leaves. -/
theorem demoteReturnsToDisconnected : Obligations.DemoteReturnsToDisconnected := by
  intro s l L h
  rw [exec_demote h, demote_eq_demoted]
  rfl

/-- Settles O42: in Error T1 is the return of R290. -/
theorem errorIsLeftAtTheNextTick : Obligations.ErrorIsLeftAtTheNextTick := by
  intro s l L h hcs
  rw [exec_t1 h, ruleT1_of_error hcs]
  rfl

/-- Settles O43: in StreamingPeriodic T2 is `enter(StreamingParse)`. -/
theorem periodicReturnsToParse : Obligations.PeriodicReturnsToParse := by
  intro s l L h hcs
  rw [exec_t2 h, ruleT2_of_periodic hcs]
  rfl

/-- Settles O44: T3 enters Error, and a Phase A that entered Error is the whole tick. -/
theorem mismatchEntersError : Obligations.MismatchEntersError := by
  intro s l L h hcs hover
  have hrule : ruleT3 s.cfg s.now (Work.start L) = takeMismatch s.cfg s.now (Work.start L) := by
    rw [ruleT3_of_disconnected (w := Work.start L) hcs]
    exact if_pos (overLimit_iff.2 hover)
  have hA : (phaseA s.cfg s.now (Work.start L)).1 = takeMismatch s.cfg s.now (Work.start L) := by
    rw [phaseA_of_disconnected (w := Work.start L) hcs, hrule]
  have htick : processLink s.cfg s.now (Work.start L) = takeMismatch s.cfg s.now (Work.start L) :=
    (processLink_of_error (by rw [hA]; exact enter_cs _ _ _ _)).trans hA
  rw [exec_processLink h, exec_t3 h, hrule, htick]
  exact ⟨congrArg _ (State.commit_start_raise s l L _ .protocolMismatch), rfl⟩

/-- Settles O45: past `T_PAIR` T9 is `demote()`. -/
theorem pairingTimesOut : Obligations.PairingTimesOut := by
  intro s l L h hcs ht
  rw [exec_t9 h, ruleT9_of_timeout hcs ht, demote_eq_demoted]

/-- Settles O46: past `T_UNACTIVE` T10 raises and demotes. -/
theorem linkLostDemotes : Obligations.LinkLostDemotes := by
  intro s l L h hcs ht
  rw [exec_t10 h, ruleT10_of_lost (w := Work.start L) hcs ht, ← demote_eq_demoted s.cfg]
  exact congrArg _ (State.commit_start_raise s l L _ .linkLost)

/-- Settles O47: T11 enters StreamingPeriodic, whose literal the selection names. -/
theorem streamTimeEntersPeriodic : Obligations.StreamTimeEntersPeriodic := by
  intro s l L v h hcs hsel hlast hentry
  rw [exec_t11 h, ruleT11_of_not_lost hcs (Nat.not_lt.2 hlast), if_pos hentry]
  simp only [enter, entryAction, tx, hsel, periodicOf_some]
  rfl

/-- Settles O52: at NoMatch in Pairing T8 is `demote()`. -/
theorem pairingNomatchDemotes : Obligations.PairingNomatchDemotes := by
  intro s l L h hcs hb hk
  rw [exec_t8 h, ruleT8_of_noMatch hcs hb hk, demote_eq_demoted]

/-- Settles O53: in both streaming states and for both classes T12 is `demote()`. -/
theorem streamingDemotes : Obligations.StreamingDemotes := by
  intro s l L h hcs hb hk
  rw [exec_t12 h, ruleT12_of_streaming hcs hb hk, demote_eq_demoted]

/-- Settles O54: the request is consumed by its variant's length. -/
theorem repeatedHandshakeIsConsumed : Obligations.RepeatedHandshakeIsConsumed := by
  intro s l L v h hcs hk
  rw [exec_pairingHsRepeat h, ruleRepeat_of_handshake hcs hk, actRepeat, hsreq_length]
  rfl

/-- Settles O56: with the threshold reached T13 enters StreamingPeriodic, whose literal the selection names. -/
theorem packetCountEntersPeriodic : Obligations.PacketCountEntersPeriodic := by
  intro s l L v h hcs hsel hne hle
  have hreached : pktThresh s.cfg L.sel ≠ 0 ∧ pktThresh s.cfg L.sel ≤ L.pkt.toNat := by
    rw [hsel, pktThresh_some]
    exact ⟨hne, hle⟩
  rw [exec_t13 h, t13_of_reached hcs hreached.1 hreached.2]
  simp only [enter, entryAction, tx, hsel, periodicOf_some]
  rfl

/-- Settles O57: PENDING_STOP writes back what the link holds. -/
theorem pendingChangesNothing : Obligations.PendingChangesNothing :=
  fun _ _ _ h => exec_pendingStop h

end Sys2Proof.Machine
end

section
/-! SUPPORT. The Link Manager (45_link_manager.md): its operations as the states they answer, what a tick leaves in the
buffer (R264), and PROCESS as the ticks of its links one after another (R254). -/

namespace Sys2Proof.Machine

open Sys2Proof

/-! ## The operations -/

theorem exec_ingest {s : State} {l : Nat} {L : Link} (h : s.link? l = .some L) (bytes : List Byte) :
    exec (.ingest l bytes) s = .next (s.ingested l L bytes) :=
  receive_eq h bytes

theorem exec_process (s : State) : exec .process s = .next (processLinks s s.linkIndices) := rfl

theorem exec_txPop {s : State} {l : Nat} {L : Link} (h : s.link? l = .some L) : exec (.txPop l) s =
    .next ((s.setLink l { L with txq := L.txq.tail }).answer (.popped L.txq.head?)) := by
  change execTxPop l s = _
  simp only [execTxPop, h]

theorem exec_readStatus {s : State} {l : Nat} {L : Link} (h : s.link? l = .some L) :
    exec (.readStatus l) s = .next (s.answer (.status (statusOf L))) := by
  change execReadStatus l s = _
  simp only [execReadStatus, h]

/-! ## What a tick leaves -/

section
variable {c : Config} {now : Nat}

/-- Phase A ends in Error exactly where T3 fires (R192). -/
theorem phaseA_error_iff {w : Work} : (phaseA c now w).1.link.cs = .error ↔
    w.link.cs = .disconnected ∧ c.disconnectLimit < w.link.dcc.toNat := by
  rw [← phaseA_stops_iff]
  cases hcs : w.link.cs with
  | disconnected => simp [phaseA_of_disconnected hcs, overLimit_iff]
  | error => simp [phaseA_of_error hcs]
  | pairing => simp [phaseA_of_pairing hcs]
  | streamingPeriodic => simp [phaseA_of_periodic hcs]
  | streamingParse =>
    by_cases hlost : c.tUnactive < elapsed c now w.link.tLast
    · simp [phaseA_of_lost hcs hlost]
    · simp [phaseA_of_not_lost hcs hlost]

/-- With a bound that covers the measure, Phase B stays outside Error and ends at an empty or a Pending buffer (R214,
R264). -/
theorem phaseB_ends (fuel : Nat) : ∀ w : Work, w.link.cs ≠ .error → phaseBMeasure w ≤ fuel →
    (phaseB c now fuel w).link.cs ≠ .error ∧
      ((phaseB c now fuel w).link.buf = [] ∨ classOf c (phaseB c now fuel w).link = .pending) := by
  induction fuel with
  | zero =>
    intro w hc hfuel
    have hb : w.link.buf = [] := List.length_eq_zero_iff.1 (by unfold phaseBMeasure at hfuel; omega)
    exact ⟨hc, .inl hb⟩
  | succ fuel ih =>
    intro w hc hfuel
    by_cases hstop : w.link.buf = [] ∨ classOf c w.link = .pending
    · rw [phaseB_of_stop hstop]
      exact ⟨hc, hstop⟩
    · obtain ⟨hb, hp⟩ := not_or.1 hstop
      obtain ⟨hless, hc'⟩ := phaseBStep_continues (phaseBStep_goes_on (now := now) hp hc) hb hc
      rw [phaseB_of_goes_on hb hp hc]
      exact ih _ hc' (by omega)

/-- A Pending buffer is shorter than a frame, which no request literal exceeds (R153, R154). -/
theorem length_le_of_classOf_pending {L : Link} (h : classOf c L = .pending) : L.buf.length ≤ 15 := by
  obtain ⟨v, -, hhs | hframe⟩ := classify_pending h
  · obtain ⟨-, hlt, -⟩ := hsPending_iff.1 hhs
    have := hsreq_length_le v
    omega
  · obtain ⟨-, hlt, -⟩ := framePending_iff.1 hframe
    omega

/-- Phase C is the idle reset of registers in which at most the counter changed (R207, R258). -/
theorem phaseC_link_eq_idleReset (startedDisc : Bool) (w : Work) :
    ∃ d, (phaseC c now startedDisc w).link = idleReset c now { w.link with dcc := d } := by
  unfold phaseC
  dsimp only
  split
  · exact ⟨_, rfl⟩
  · exact ⟨w.link.dcc, rfl⟩

@[simp] theorem idleReset_cs (L : Link) : (idleReset c now L).cs = L.cs := by rw [idleReset_eq]

/-- After the idle reset the buffer is empty, or nothing changed and its newest byte is fresh (R258). -/
theorem idleReset_empty_or_fresh (L : Link) :
    (idleReset c now L).buf = [] ∨ idleReset c now L = L ∧ elapsed c now L.tLast ≤ c.tIdle := by
  rw [idleReset_eq_ite]
  split
  next => exact .inl rfl
  next hkept =>
    by_cases hb : L.buf = []
    · exact .inl hb
    · exact .inr ⟨rfl, Nat.not_lt.1 fun hold => hkept ⟨hb, hold⟩⟩

/-- Phase C leaves a buffer that was empty or Pending so, and a Pending one only while it is fresh (R264). -/
theorem phaseC_leaves_fresh {w : Work} (startedDisc : Bool) (hw : w.link.buf = [] ∨ classOf c w.link = .pending) :
    (phaseC c now startedDisc w).link.cs = w.link.cs ∧
      ((phaseC c now startedDisc w).link.buf = [] ∨ classOf c (phaseC c now startedDisc w).link = .pending ∧
        elapsed c now (phaseC c now startedDisc w).link.tLast ≤ c.tIdle) := by
  obtain ⟨d, heq⟩ := phaseC_link_eq_idleReset (c := c) (now := now) startedDisc w
  rw [heq]
  refine ⟨idleReset_cs _, ?_⟩
  obtain hempty | ⟨hsame, hfresh⟩ := idleReset_empty_or_fresh (c := c) (now := now) { w.link with dcc := d }
  · exact .inl hempty
  · rw [hsame]
    exact hw.imp_right fun hp => ⟨hp, hfresh⟩

end

/-! ## PROCESS -/

/-- What the tick of a link does, from the registers it holds (R255). -/
def State.tickOf (s : State) (L : Link) : Work := processLink s.cfg s.now (Work.start L)

/-- The state after the links `rest`, which follow the links `pre`, were ticked in ascending order at the one `now`
(R254). -/
def State.afterTicks (s : State) (pre rest : List Link) : State :=
  { s with
    links := pre ++ rest.map fun L => (s.tickOf L).link
    frameOut := s.frameOut ++
      ((rest.zipIdx (pre.length + 1)).map fun p => (s.tickOf p.1).frames.map (frameEvent p.2)).flatten
    errOut := s.errOut ++
      ((rest.zipIdx (pre.length + 1)).map fun p => (s.tickOf p.1).errs.map (errEvent p.2)).flatten }

theorem State.link?_of_links_eq_append {s : State} {pre rest : List Link} {L : Link} (h : s.links = pre ++ L :: rest) :
    s.link? (pre.length + 1) = .some L := by
  simp [State.link?, h]

/-- One tick writes its link's place in the list and appends to the streams. -/
theorem State.commit_of_links_eq_append {s : State} {pre rest : List Link} {L : Link}
    (h : s.links = pre ++ L :: rest) (w : Work) :
    s.commit (pre.length + 1) w =
      { s with
        links := pre ++ w.link :: rest
        frameOut := s.frameOut ++ w.frames.map (frameEvent (pre.length + 1))
        errOut := s.errOut ++ w.errs.map (errEvent (pre.length + 1)) } := by
  simp [State.commit, State.setLink, State.addFrames, State.addErrs, h]

/-- A tick reads the parameters and the time alone, which no tick writes: each link's tick is that of the state before
the first (R254). -/
theorem processLinks_range' (rest : List Link) : ∀ (s : State) (pre : List Link), s.links = pre ++ rest →
    processLinks s (List.range' (pre.length + 1) rest.length) = s.afterTicks pre rest := by
  induction rest with
  | nil =>
    intro s pre h
    simp [processLinks, State.afterTicks, ← h]
  | cons L rest ih =>
    intro s pre h
    have hhead : s.updLink (pre.length + 1) processLink = s.commit (pre.length + 1) (s.tickOf L) :=
      State.updLink_eq _ (State.link?_of_links_eq_append h)
    have hrest := ih (s.commit (pre.length + 1) (s.tickOf L)) (pre ++ [(s.tickOf L).link])
      (by simp [State.commit_of_links_eq_append h])
    rw [List.length_append, List.length_singleton] at hrest
    calc processLinks s (List.range' (pre.length + 1) (rest.length + 1))
        = processLinks (s.commit (pre.length + 1) (s.tickOf L)) (List.range' (pre.length + 1 + 1) rest.length) := by
          rw [List.range'_succ, processLinks, List.foldl_cons, hhead, processLinks]
      _ = s.afterTicks pre (L :: rest) := by
          rw [hrest, State.commit_of_links_eq_append h]
          simp [State.afterTicks, State.tickOf]

end Sys2Proof.Machine
end

section
/-! The statements about the Link Manager (45_link_manager.md). -/

namespace Sys2Proof.Machine

open Sys2Proof

/-- Settles O13: T3 is the whole tick and leaves the buffer; any other tick is what Phase B ends at (`phaseB_ends`),
which Phase C keeps only while it is fresh. -/
theorem tickLeavesFreshPendingStart : Obligations.TickLeavesFreshPendingStart := by
  intro s l L h
  refine ⟨_, _, exec_processLink h, State.link?_commit_same _ h, ?_⟩
  have hT3 := phaseA_error_iff (c := s.cfg) (now := s.now) (w := Work.start L)
  split
  next hover =>
    have herr := hT3.2 hover
    rw [processLink_of_error herr]
    exact ⟨phaseA_buf _ _ _, herr⟩
  next hnot =>
    have hgo := mt hT3.1 hnot
    rw [processLink_of_not_error hgo rfl]
    obtain ⟨hcs, hends⟩ := phaseB_ends (now := s.now) _ _ hgo (phaseBMeasure_le _)
    obtain ⟨hsame, hleft⟩ := phaseC_leaves_fresh (now := s.now) _ hends
    refine ⟨fun herr => hcs (hsame.symm.trans herr), hleft.imp_right ?_⟩
    rintro ⟨hp, hfresh⟩
    exact ⟨hp, length_le_of_classOf_pending hp, hfresh⟩

/-- Settles O15: PROCESS is the ticks of all links, none of which stands before the first. -/
theorem processTicksEveryLink : Obligations.ProcessTicksEveryLink := by
  intro s hlen
  have hrun : processLinks s s.linkIndices = s.afterTicks [] s.links := by
    rw [State.linkIndices, ← hlen]
    exact processLinks_range' s.links s [] rfl
  exact ⟨s.afterTicks [] s.links, by rw [exec_process, hrun], rfl, rfl, rfl, rfl, rfl, rfl, rfl⟩

/-- Settles O21: INGEST answers as an arriving message of its bytes does. -/
theorem ingestStoresWhatFits : Obligations.IngestStoresWhatFits :=
  fun _ _ _ bytes h => exec_ingest h bytes

/-- Settles O7: RESET writes the links, the streams and the returned value, and nothing else. -/
theorem resetPutsEveryLinkInR38 : Obligations.ResetPutsEveryLinkInR38 :=
  fun _ => ⟨_, rfl, rfl, rfl, rfl, rfl, rfl, rfl⟩

/-- Settles O59: an empty queue is written back as it was, of any other the tail. -/
theorem txPopTakesTheHead : Obligations.TxPopTakesTheHead := by
  intro s l L h
  rw [exec_txPop h]
  refine ⟨fun hempty => ?_, fun v q hq => ?_⟩
  · have hsame : { L with txq := L.txq.tail } = L := by rw [hempty, List.tail_nil, ← hempty]
    rw [hsame, State.setLink_self h, hempty]
    rfl
  · rw [hq]
    rfl

/-- Settles O60: the tuple of `statusOf`, its codes those of R25 and R29. -/
theorem readStatusReturnsRegisters : Obligations.ReadStatusReturnsRegisters := by
  intro s l L h
  exact exec_readStatus h

end Sys2Proof.Machine
end

section
/-! SUPPORT. When an operation completes (60_exceptions.md): an instruction with a link operand answers a next state on
a link the block has and is refused on any other (R302), and the well-formed instructions name links the block has. -/

namespace Sys2Proof.Machine

open Sys2Proof

/-! ## The link operand -/

theorem State.link?_eq_none_iff (s : State) (l : Nat) : s.link? l = .none ↔ l = 0 ∨ s.links.length < l := by
  have hsome := s.link?_isSome l
  rw [← Option.not_isSome_iff_eq_none, hsome]
  omega

theorem State.Inv.exists_link? {s : State} (h : s.Inv) {l : Nat} (hl : linkOk s.cfg l = true) :
    ∃ L, s.link? l = .some L := by
  obtain ⟨hcount, -, -⟩ := h
  simp only [linkOk, Bool.and_eq_true, decide_eq_true_eq] at hl
  exact Option.isSome_iff_exists.1 ((s.link?_isSome l).2 (hcount ▸ hl))

section
variable {i : Instr} {l : Nat} {s : State}

/-- The two operations that do not run through `onLink`, and all the others (`exec_eq_onLink`). -/
theorem exec_link_cases (h : linkArg i = .some l) (s : State) :
    i = .txPop l ∨ i = .readStatus l ∨ ∃ f, exec i s = onLink l s f :=
  or_iff_not_imp_left.2 fun hpop => or_iff_not_imp_left.2 fun hread => exec_eq_onLink h hpop hread s

theorem exec_next_of_link? {L : Link} (h : linkArg i = .some l) (hl : s.link? l = .some L) :
    ∃ t, exec i s = .next t := by
  obtain rfl | rfl | ⟨f, hf⟩ := exec_link_cases h s
  · exact ⟨_, exec_txPop hl⟩
  · exact ⟨_, exec_readStatus hl⟩
  · exact ⟨_, hf.trans (onLink_eq f hl)⟩

theorem exec_refused_of_link? (h : linkArg i = .some l) (hl : s.link? l = .none) :
    exec i s = .refused (.badLink l) := by
  obtain rfl | rfl | ⟨f, hf⟩ := exec_link_cases h s
  · change execTxPop l s = _
    simp only [execTxPop, hl]
  · change execReadStatus l s = _
    simp only [execReadStatus, hl]
  · exact hf.trans (onLink_refused f hl)

end

/-! ## The instructions that have a word -/

/-- The link operand of a well-formed instruction is an index of `1..N_LINKS`. -/
theorem linkOk_of_wellFormed {c : Config} {i : Instr} {l : Nat} (h : i.wellFormed c = true) (hl : linkArg i = .some l) :
    linkOk c l = true := by
  cases i with
  | legacyFrame | modernFrame => cases hl; exact (Bool.and_eq_true_iff.1 h).1
  | _ => cases hl <;> exact h

theorem eq_reset_or_process_of_encode {c : Config} {i : Instr} (hw : encode c i ≠ .none) (hl : linkArg i = .none) :
    i = .reset ∨ i = .process := by
  cases i with
  | reset => exact .inl rfl
  | process => exact .inr rfl
  | crcLegacy | crcModern | ckField | ckValid | hsMatch | frameMatch | hsPending | framePending | classify | resync =>
    exact absurd rfl hw
  | _ => cases hl

/-- Every operation and message on operands in range completes (R303). -/
theorem exec_next_of_wellFormed {s : State} {i : Instr} (hs : s.Inv) (hi : i.wellFormed s.cfg = true)
    (hw : encode s.cfg i ≠ .none) : ∃ t, exec i s = .next t := by
  cases hl : linkArg i with
  | some l =>
    obtain ⟨L, hL⟩ := hs.exists_link? (linkOk_of_wellFormed hi hl)
    exact exec_next_of_link? hl hL
  | none => obtain rfl | rfl := eq_reset_or_process_of_encode hw hl <;> exact ⟨_, rfl⟩

end Sys2Proof.Machine
end

section
/-! SUPPORT. What a tick and a PROCESS append to `err_out` (R292): Phase A raises at most one event, Phase B and Phase C
none. -/

namespace Sys2Proof.Machine

open Sys2Proof

/-! ## The tick -/

/-- The kinds a tick may raise: none, or one of the two that T10 and T3 raise (R292). -/
def TickKinds (ks : List ErrKind) : Prop := ks = [] ∨ ks = [.linkLost] ∨ ks = [.protocolMismatch]

theorem TickKinds.kind {ks : List ErrKind} (h : TickKinds ks) {k : ErrKind} (hk : k ∈ ks) :
    k = .linkLost ∨ k = .protocolMismatch := by
  obtain rfl | rfl | rfl := h
  · cases hk
  · exact .inl (List.mem_singleton.1 hk)
  · exact .inr (List.mem_singleton.1 hk)

theorem TickKinds.length_le {ks : List ErrKind} (h : TickKinds ks) : ks.length ≤ 1 := by
  obtain rfl | rfl | rfl := h <;> decide

section
variable {c : Config} {now : Nat}

/-- Of the Phase A rules T3 raises ProtocolMismatch and T10 LinkLost (R286, R287). -/
theorem phaseA_errs {w : Work} (h : w.errs = []) : TickKinds (phaseA c now w).1.errs := by
  cases hcs : w.link.cs with
  | error => rw [phaseA_of_error hcs]; exact .inl h
  | streamingPeriodic => rw [phaseA_of_periodic hcs]; exact .inl h
  | pairing => rw [phaseA_of_pairing hcs]; exact .inl h
  | disconnected =>
    rw [phaseA_of_disconnected hcs, ruleT3_of_disconnected hcs]
    split
    · exact .inr (.inr (by simp [takeMismatch, h]))
    · exact .inl h
  | streamingParse =>
    by_cases hlost : c.tUnactive < elapsed c now w.link.tLast
    · rw [phaseA_of_lost hcs hlost, ruleT10_of_lost hcs hlost]
      exact .inr (.inl (by simp [takeLinkLost, h]))
    · rw [phaseA_of_not_lost hcs hlost]; exact .inl h

theorem phaseB_errs (fuel : Nat) : ∀ w : Work, (phaseB c now fuel w).errs = w.errs := by
  induction fuel with
  | zero => exact fun _ => rfl
  | succ fuel ih =>
    intro w
    have hstep := phaseBStep_errs c now w (classOf c w.link)
    unfold phaseB
    split
    · rfl
    · split <;> rename_i hw <;> rw [hw] at hstep
      · exact (ih _).trans hstep
      · exact hstep

theorem processLink_errs {w : Work} (h : w.errs = []) : TickKinds (processLink c now w).errs := by
  have hA := phaseA_errs (c := c) (now := now) h
  unfold processLink
  split <;> rename_i w₁ hw <;> rw [hw] at hA
  · exact hA
  · rw [phaseC_errs, phaseB_errs]
    exact hA

end

/-! ## PROCESS -/

/-- An event a tick of one of the block's links may append (R281, R292). -/
def State.TickEvent (s : State) (e : ErrEvent) : Prop :=
  (e.kind = .linkLost ∨ e.kind = .protocolMismatch) ∧ e.raw = 0 ∧ (s.link? e.link).isSome

theorem State.tickEvent_commit {s : State} {l : Nat} {w : Work} {e : ErrEvent} :
    (s.commit l w).TickEvent e ↔ s.TickEvent e := by
  simp only [State.TickEvent, State.link?_isSome, State.commit_length]

/-- The events one tick appends, as events of its link. -/
theorem State.tickEvent_of_errs {s : State} {l : Nat} {L : Link} (hl : s.link? l = .some L) {ks : List ErrKind}
    (h : TickKinds ks) {e : ErrEvent} (he : e ∈ ks.map (errEvent l)) : s.TickEvent e := by
  obtain ⟨k, hk, rfl⟩ := List.mem_map.1 he
  exact ⟨h.kind hk, rfl, Option.isSome_iff_exists.2 ⟨L, hl⟩⟩

/-- The links of one tick's events: at most its own, once. -/
theorem TickKinds.links_sublist {ks : List ErrKind} (h : TickKinds ks) (l : Nat) :
    ((ks.map (errEvent l)).map ErrEvent.link).Sublist [l] := by
  have hlinks : (ks.map (errEvent l)).map ErrEvent.link = List.replicate ks.length l := by
    rw [List.map_map]
    exact List.map_const' ..
  rw [hlinks]
  exact (List.replicate_sublist_replicate l).2 h.length_le

/-- Ticks of the links `ls` append at most one event for each entry of `ls`, in that order (R254, R292). -/
theorem processLinks_errOut (ls : List Nat) : ∀ s : State, ∃ es, (processLinks s ls).errOut = s.errOut ++ es ∧
    (∀ e ∈ es, s.TickEvent e) ∧ (es.map ErrEvent.link).Sublist ls := by
  induction ls with
  | nil => exact fun s => ⟨[], (List.append_nil _).symm, by simp, .slnil⟩
  | cons l ls ih =>
    intro s
    obtain ⟨es, hout, hevents, hlinks⟩ := ih (s.updLink l processLink)
    cases hl : s.link? l with
    | none =>
      have hsame : s.updLink l processLink = s := by simp only [State.updLink, hl]
      rw [hsame] at hout hevents
      exact ⟨es, by simpa [processLinks, hsame] using hout, hevents, hlinks.cons l⟩
    | some L =>
      have hkinds : TickKinds (s.tickOf L).errs := processLink_errs rfl
      have htick : s.updLink l processLink = s.commit l (s.tickOf L) := State.updLink_eq _ hl
      rw [htick] at hout hevents
      refine ⟨(s.tickOf L).errs.map (errEvent l) ++ es, ?_, fun e he => ?_, ?_⟩
      · rw [← List.append_assoc, ← State.commit_errOut, ← hout, ← htick]
        rfl
      · obtain he | he := List.mem_append.1 he
        · exact State.tickEvent_of_errs hl hkinds he
        · exact State.tickEvent_commit.1 (hevents e he)
      · rw [List.map_append]
        exact (hkinds.links_sublist l).append hlinks

end Sys2Proof.Machine
end

section
/-! The statements about what is refused and what is raised (60_exceptions.md). -/

namespace Sys2Proof.Machine

open Sys2Proof

/-- Settles O6: a well-formed instruction with a word names a link the block has, or is RESET or PROCESS; each
completes, and `exec_inv` keeps the invariants. -/
theorem issuedOperationsAreTotal : Obligations.IssuedOperationsAreTotal := by
  intro s i w hs hi hw
  have hword : encode s.cfg i ≠ .none := by simp [hw]
  obtain ⟨t, ht⟩ := exec_next_of_wellFormed hs hi hword
  exact ⟨t, ht, exec_inv hs hword ht⟩

/-- Settles O17: a PROCESS ticks each index once, and an INGEST raises only where a byte was dropped. -/
theorem eventsPerOperation : Obligations.EventsPerOperation := by
  intro s t
  refine ⟨fun ht => ?_, fun l bytes ht => ?_⟩
  · rw [exec_process] at ht
    cases ht
    obtain ⟨es, hout, hevents, hlinks⟩ := processLinks_errOut s.linkIndices s
    exact ⟨es, hout, hevents, hlinks.nodup List.nodup_range'⟩
  · obtain ⟨L, hl, -⟩ := onLink_next ht
    rw [exec_ingest hl] at ht
    cases ht
    unfold State.ingested
    dsimp only
    split
    · exact .inr (by simp)
    · exact .inl (by simp)

/-- Settles O19: an index outside `1..` the number of links names no link, and every link operand is looked up first. -/
theorem linkOutOfRangeRefused : Obligations.LinkOutOfRangeRefused := by
  intro s i l hi hl
  exact exec_refused_of_link? hi ((s.link?_eq_none_iff l).2 hl)

end Sys2Proof.Machine
end

section
/-! SUPPORT. A tick with nothing to do (R212, R255): no rule of Phase A fires, and Phases B and C find no byte. -/

namespace Sys2Proof.Machine

open Sys2Proof

section
variable {c : Config} {now : Nat} {w : Work}

/-- Phase A does nothing in Disconnected while T3's counter is within its limit (R192, R212). -/
theorem phaseA_of_within_limit (hcs : w.link.cs = .disconnected) (hdcc : w.link.dcc.toNat ≤ c.disconnectLimit) :
    phaseA c now w = (w, false) := by
  have hover : overLimit c w.link = false := decide_eq_false (Nat.not_lt.2 hdcc)
  rw [phaseA_of_disconnected hcs, ruleT3_of_not (.inr hdcc), hover]

/-- Phase C does nothing where T6 discarded nothing and the buffer is empty (R207, R258). -/
theorem phaseC_of_empty (startedDisc : Bool) (hb : w.link.buf = []) (hd : w.discarded = false) :
    phaseC c now startedDisc w = w := by
  have hidle : idleReset c now w.link = w.link := by
    rw [idleReset_eq_ite, if_neg fun ⟨hne, _⟩ => hne hb]
  have hcount : ¬ (startedDisc ∧ w.link.cs = .disconnected ∧ w.discarded) := by simp [hd]
  simp only [phaseC, if_neg hcount, Work.upd, hidle]

/-- The tick of a Disconnected link with an empty buffer and its counter within the limit does nothing (R255). -/
theorem processLink_of_idle (hcs : w.link.cs = .disconnected) (hdcc : w.link.dcc.toNat ≤ c.disconnectLimit)
    (hb : w.link.buf = []) (hd : w.discarded = false) : processLink c now w = w := by
  have hA : phaseA c now w = (w, false) := phaseA_of_within_limit hcs hdcc
  have hgo : (phaseA c now w).1.link.cs ≠ .error := by simp [hA, hcs]
  rw [processLink_of_not_error hgo hd, hA, phaseB_of_stop (.inl hb), phaseC_of_empty _ hb hd]

end

/-- A link at its reset values has nothing to do, whatever the limit: its counter is 0 (R38, R311). -/
theorem State.tickOf_reset (s : State) : s.tickOf Link.reset = Work.start Link.reset :=
  processLink_of_idle rfl (Nat.zero_le _) rfl rfl

/-- Ticks that all do nothing leave the state as it is. -/
theorem processLinks_of_idle {s : State} (h : ∀ L ∈ s.links, s.tickOf L = Work.start L) (ls : List Nat) :
    processLinks s ls = s := by
  have htick (l : Nat) : s.updLink l processLink = s := by
    cases hl : s.link? l with
    | none => simp only [State.updLink, hl]
    | some L =>
      calc s.updLink l processLink
          = s.commit l (s.tickOf L) := State.updLink_eq _ hl
        _ = s.commit l (Work.start L) := by rw [h L (State.mem_links_of_link? hl)]
        _ = s := State.commit_start hl
  induction ls with
  | nil => rfl
  | cons l ls ih => rwa [processLinks, List.foldl_cons, htick]

end Sys2Proof.Machine
end

section
/-! The statement about the first PROCESS after reset (70_reset_and_hazards.md). -/

namespace Sys2Proof.Machine

open Sys2Proof

/-- Settles O9: every link is at its reset values, whose tick does nothing (`State.tickOf_reset`). -/
theorem firstProcessAfterResetChangesNothing : Obligations.FirstProcessAfterResetChangesNothing := by
  intro s hlinks
  have hidle : ∀ L ∈ s.links, s.tickOf L = Work.start L := by
    intro L hL
    rw [hlinks] at hL
    obtain rfl : L = Link.reset := List.eq_of_mem_replicate hL
    exact s.tickOf_reset
  rw [exec_process, processLinks_of_idle hidle]

end Sys2Proof.Machine
end
